-- ==== Sys2Proof/Word.lean ====
section
/-! DEFINITION. The word of the block: every value on every port is a byte (00_scope R11, 20_memory R35). -/

namespace Sys2Proof

/-- An 8-bit unsigned value, 0..255 (00_scope R11). -/
abbrev Byte := BitVec 8

end Sys2Proof
end

