-- ==== Sys2Proof/Config.lean ====
section
/-! DEFINITION. What is fixed for the life of the block: the constants of 00_scope R8 and the type of the open
parameters of 00_scope R9. The parameters themselves are a field of State (the tie-off port of 10_state R16), so that
every statement about every state speaks of every parameter set. -/

namespace Sys2Proof

namespace Config

/-- `MARKER` (R8). UNVERIFIED (spec decision D28: the source's literals are unaudited), log entry 15. -/
def marker : Byte := 0x7E#8

/-- `FRAME_SIZE` in bytes (R8). -/
def frameSize : Nat := 8

/-- `PAYLOAD_LEN` in bytes (R8). -/
def payloadLen : Nat := 4

/-- `RESERVED_VALUE` (R8). -/
def reservedValue : Byte := 0x00#8

/-- `CK_SEED` (R8). -/
def ckSeed : Byte := 0xFF#8

/-- `CK_LEN` in bytes (R8). -/
def ckLen : Nat := 7

/-- `SET_POWER_INDEX` (R8). -/
def setPowerIndex : Fin 4 := 0

end Config

/-- The open parameters (00_scope R9): five request codes, five ack codes, two payload indexes in 0..3. -/
structure Params where
  cmdConfigTc  : Byte
  cmdSetPower  : Byte
  cmdAuto      : Byte
  cmdManual    : Byte
  cmdShutdown  : Byte
  ackConfigTc  : Byte
  ackSetPower  : Byte
  ackAuto      : Byte
  ackManual    : Byte
  ackShutdown  : Byte
  tcIndex      : Fin 4
  tcAckIndex   : Fin 4
deriving DecidableEq, Repr

/-- The five request codes, in the order of the dispatch table (30_encoding R53). -/
def Params.requestCodes (p : Params) : List Byte :=
  [p.cmdConfigTc, p.cmdSetPower, p.cmdAuto, p.cmdManual, p.cmdShutdown]

/-- The five ack codes, in the order of 30_encoding R55. -/
def Params.ackCodes (p : Params) : List Byte :=
  [p.ackConfigTc, p.ackSetPower, p.ackAuto, p.ackManual, p.ackShutdown]

/-- Parameter well-formedness (00_scope R10): the request codes are pairwise distinct. The ack codes are free. -/
abbrev Params.Distinct (p : Params) : Prop := p.requestCodes.Nodup

/-- The parameter set the reset state is tied to. DESIGN CHOICE (log entry 1, unsafe where a claim rests on it): the spec
gives no codes (R9, D4 to D7); these are the illustrative values EX of 95_test_vectors.md (D22). -/
def Config.tieOff : Params where
  cmdConfigTc  := 0x01#8
  cmdSetPower  := 0x02#8
  cmdAuto      := 0x03#8
  cmdManual    := 0x04#8
  cmdShutdown  := 0x05#8
  ackConfigTc  := 0x81#8
  ackSetPower  := 0x82#8
  ackAuto      := 0x83#8
  ackManual    := 0x84#8
  ackShutdown  := 0x85#8
  tcIndex      := 0
  tcAckIndex   := 0

end Sys2Proof
end

