-- ==== Sys2Proof/Syntax.lean ====
section
/-! DEFINITION. The syntax: the wire frame, the decoded record, and one constructor of Instr for each row of
spec/opcode_table.json. -/

namespace Sys2Proof

/-- The assembler's mode (10_state R18): two-valued, with no bit encoding (D23). -/
inductive Mode where
  | seeking
  | accumulating
deriving DecidableEq, Repr

/-- The four payload bytes of a frame, `payload[0]` first (30_encoding R46). -/
structure Payload where
  p0 : Byte
  p1 : Byte
  p2 : Byte
  p3 : Byte
deriving DecidableEq, Repr

/-- An 8-byte wire frame, its fields in wire order: offsets 0, 1, 2 to 5, 6, 7 (30_encoding R46). Any eight bytes are one;
nothing here says that it is valid. -/
structure WireFrame where
  marker   : Byte
  command  : Byte
  payload  : Payload
  reserved : Byte
  checksum : Byte
deriving DecidableEq, Repr

/-- The record decode returns on success (40_codec R70). The marker is no field of it. -/
structure Frame where
  command  : Byte
  payload  : Payload
  reserved : Byte
  checksum : Byte
deriving DecidableEq, Repr

/-- What the codec's decode answers (40_codec R69): `Ok(frame)` or the one error value `FrameInvalid`. -/
inductive Decoded where
  | ok (fr : Frame)
  | frameInvalid
deriving DecidableEq, Repr

/-- One constructor per row of spec/opcode_table.json. A frame row carries the bytes its meaning or its encoding needs and
the encoding does not already fix: the marker, a request code and a valid frame's checksum are not operands. -/
inductive Instr where
  -- the FEED transaction, by byte class (30_encoding R56)
  /-- FEED_NOISE (41_assembler R74). -/
  | feedNoise (b : Byte)
  /-- FEED_START (R75); its byte is the marker. -/
  | feedStart
  /-- FEED_DATA (R76). -/
  | feedData (b : Byte)
  /-- FEED_END (R77). -/
  | feedEnd (b : Byte)
  -- a completed candidate, by validity and command code (30_encoding R52, R53)
  /-- CONFIG_TC (42_dispatcher R87). -/
  | configTc (payload : Payload) (reserved : Byte)
  /-- SET_POWER (R88). -/
  | setPower (payload : Payload) (reserved : Byte)
  /-- ENABLE_AUTO (R89). -/
  | enableAuto (payload : Payload) (reserved : Byte)
  /-- ENABLE_MANUAL (R90). -/
  | enableManual (payload : Payload) (reserved : Byte)
  /-- SHUTDOWN (R91). -/
  | shutdown (payload : Payload) (reserved : Byte)
  /-- UNRECOGNIZED (R92): a valid frame whose command byte is no request code. -/
  | unrecognized (command : Byte) (payload : Payload) (reserved : Byte)
  /-- FRAME_INVALID (41_assembler R79): eight bytes that are not a valid frame. -/
  | frameInvalid (f : WireFrame)
  -- the frames the block writes (direction "out" in the table; 42_dispatcher R94)
  /-- ACK_CONFIG_TC_FRAME: echoes v. -/
  | ackConfigTcFrame (v : Byte)
  /-- ACK_SET_POWER_FRAME: echoes v. -/
  | ackSetPowerFrame (v : Byte)
  /-- ACK_AUTO_FRAME. -/
  | ackAutoFrame
  /-- ACK_MANUAL_FRAME. -/
  | ackManualFrame
  /-- ACK_SHUTDOWN_FRAME. -/
  | ackShutdownFrame
  -- the codec's functions (40_codec), which have no encoding (30_encoding R62)
  /-- CHECKSUM (R63). -/
  | checksum (bytes : List Byte) (n : Nat)
  /-- ENCODE (R66). -/
  | encode (command : Byte) (payload : Payload)
  /-- DECODE (R69). -/
  | decode (f : WireFrame)
deriving DecidableEq, Repr

/-- Where an encoding is read. The same bytes are different rows at different places: a fed byte is classified by the
mode and the count (30_encoding R56), a completed candidate by its own bytes (R52, R53), and a frame on the WRITE port is
an ack (R94). -/
inductive Site where
  /-- one byte at the FEED port, with the assembler's mode and count -/
  | feed (mode : Mode) (count : Nat)
  /-- the eight bytes of a completed candidate -/
  | inbound
  /-- the eight bytes of a frame on the WRITE port -/
  | outbound
deriving DecidableEq, Repr

/-- Why a decoder gives no row. -/
inductive DecodeError where
  /-- not exactly one byte at the FEED port (20_memory R35) -/
  | notOneByte
  /-- not exactly eight bytes (30_encoding R58) -/
  | notOneFrame
  /-- ACCUMULATING with eight or more bytes already held: no row of the table (20_memory R34, 10_state R24) -/
  | bufferFull
  /-- two equal request codes (00_scope R10) -/
  | codesNotDistinct
  /-- eight bytes on WRITE that are none of the five ack frames (30_encoding R55) -/
  | notAnAck
deriving DecidableEq, Repr

end Sys2Proof
end

