-- ==== Sys2Proof/Machine/State.lean ====
section
/-! DEFINITION. The state as plain data: the three registers the spec gives the block (10_state R15), the tie-off
parameters (R16), and the model's own record of what has passed the ports. -/

namespace Sys2Proof.Machine

/-- An output event (10_state R17). `write` is one whole 8-byte frame. -/
inductive Event where
  /-- on port SET_TC -/
  | setTc (v : Byte)
  /-- on port SET_POWER -/
  | setPower (v : Byte)
  /-- on port WRITE -/
  | write (f : WireFrame)
deriving DecidableEq, Repr

/-- The value one FEED transaction puts on the OUTCOME port (60_exceptions R101, codes 0 to 9 in this order). -/
inductive FeedOutcome where
  | noiseDiscarded
  | frameStarted
  | byteAccumulated
  | frameInvalid
  | unrecognized
  | dispatchedConfigTc
  | dispatchedSetPower
  | dispatchedAuto
  | dispatchedManual
  | dispatchedShutdown
deriving DecidableEq, Repr

/-- What a codec function run on its own returned (40_codec R63, R66, R69). -/
inductive CodecResult where
  | byte (b : Byte)
  | frame (f : WireFrame)
  | decoded (d : Decoded)
deriving DecidableEq, Repr

/-- Why the machine stops with a fault. -/
inductive Fault where
  /-- The step and every FEED row, on a state that breaks I-LEN, I-BOUND or I-SEEK (41_assembler R80). Safe: the spec's own
  fault, unreachable from reset. -/
  | invariantViolated
  /-- The step, and a FEED row's Append, on a block that already holds eight bytes: Append requires count < FRAME_SIZE
  (20_memory R34). Safe: 10_state R24 says it is never seen at a boundary. DEDUCED, log entry 6. -/
  | bufferFull
deriving DecidableEq, Repr

/-- Why there is no meaning. -/
inductive Refusal where
  /-- Raised by no arm: every row has its meaning. Safe. -/
  | notModelled (mnemonic : String)
  /-- The step and every row that depends on the parameters, under a parameter set with two equal request codes
  (00_scope R10: "the model has no step for it"). Safe. -/
  | codesNotDistinct
  /-- A FEED row, UNRECOGNIZED or FRAME_INVALID run where the row's own condition in the opcode table fails; no step does
  it. Safe. DESIGN CHOICE, log entry 8. -/
  | rowNotSelected
  /-- CHECKSUM with n > len(bytes) (40_codec R63: "outside the function's domain, and the model refuses it"). Safe. -/
  | checksumOutOfDomain
deriving DecidableEq, Repr

/-- The machine's state. -/
structure State where
  /-- the tie-off port (10_state R16, R30): no transaction writes it -/
  params      : Params
  /-- R18 -/
  mode        : Mode
  /-- R19 -/
  count       : Nat
  /-- R20 -/
  buf         : List Byte
  /-- the FEED port: bytes delivered and not yet fed, oldest first (20_memory R41). The model's own, log entry 2. -/
  input       : List Byte
  /-- every event emitted so far, oldest first (20_memory R42). The model's own record, log entry 3. -/
  events      : List Event
  /-- every outcome so far, oldest first (60_exceptions R101). The model's own record, log entry 3. -/
  outcomes    : List FeedOutcome
  /-- what the last codec function run on its own returned. The model's own, log entry 4. -/
  codecResult : Option CodecResult
deriving DecidableEq, Repr

/-- The state right after reset under a parameter set (70_reset R117, R123): SEEKING, 0, empty, and nothing pending. -/
def State.resetWith (p : Params) : State where
  params      := p
  mode        := .seeking
  count       := 0
  buf         := []
  input       := []
  events      := []
  outcomes    := []
  codecResult := none

/-- The state right after reset, under the tie-off of log entry 1. -/
def State.reset : State := State.resetWith Config.tieOff

/-- A step's answer. -/
abbrev Answer := Host.Outcome State Fault Refusal

end Sys2Proof.Machine
end

