-- ==== Sys2Proof/Machine/Invariants.lean ====
section
/-! DEFINITION. The invariants the spec puts on the assembler's registers. -/

namespace Sys2Proof.Machine

/-- I-LEN (10_state R21). -/
abbrev ILen (s : State) : Prop := s.count = s.buf.length

/-- I-BOUND (10_state R22). -/
abbrev IBound (s : State) : Prop := s.count ≤ Config.frameSize

/-- I-SEEK (10_state R23). -/
abbrev ISeek (s : State) : Prop := s.mode = .seeking → s.buf = [] ∧ s.count = 0

/-- The three invariants FEED is defined under (41_assembler R80). -/
abbrev RegInv (s : State) : Prop := ILen s ∧ IBound s ∧ ISeek s

/-- The shape of every reachable state between transactions (10_state R24): `(SEEKING, 0, [])`, or ACCUMULATING with
1 to 7 bytes of which the first is the marker. -/
abbrev Boundary (s : State) : Prop :=
  (s.mode = .seeking ∧ s.count = 0 ∧ s.buf = []) ∨
  (s.mode = .accumulating ∧ 1 ≤ s.count ∧ s.count ≤ 7 ∧ s.buf.length = s.count ∧ s.buf.head? = some Config.marker)

/-- A state the spec defines FEED on: an accepted parameter set (00_scope R10) and the three invariants. -/
abbrev Ready (s : State) : Prop := s.params.Distinct ∧ RegInv s

end Sys2Proof.Machine
end

