-- ==== Sys2Proof/Machine/Codec.lean ====
section
/-! DEFINITION. The Frame Codec (40_codec): checksum, encode and decode as pure functions, the validity predicate, and the
layout of a frame's bytes on the wire and in the table's 64-bit notation. -/

namespace Sys2Proof.Machine

/-- `payload[i]` (30_encoding R46). -/
def payloadByte (p : Payload) (i : Fin 4) : Byte :=
  match i with
  | 0 => p.p0
  | 1 => p.p1
  | 2 => p.p2
  | 3 => p.p3

/-- The all-zero payload (30_encoding R49, R55). -/
def zeroPayload : Payload := ⟨0x00#8, 0x00#8, 0x00#8, 0x00#8⟩

/-- Zero everywhere but `v` at index i (30_encoding R55). -/
def payloadWith (i : Fin 4) (v : Byte) : Payload :=
  match i with
  | 0 => { zeroPayload with p0 := v }
  | 1 => { zeroPayload with p1 := v }
  | 2 => { zeroPayload with p2 := v }
  | 3 => { zeroPayload with p3 := v }

/-- The payload's four bytes in wire order. -/
def payloadBytes (p : Payload) : List Byte := [p.p0, p.p1, p.p2, p.p3]

/-- A frame's eight bytes in wire order: offset 0 is the first byte on the wire (20_memory R36). -/
def frameBytes (f : WireFrame) : List Byte :=
  [f.marker, f.command, f.payload.p0, f.payload.p1, f.payload.p2, f.payload.p3, f.reserved, f.checksum]

/-- Eight bytes in wire order as a frame; any other number of bytes is none (30_encoding R58). -/
def frameOfBytes (bs : List Byte) : Option WireFrame :=
  match bs with
  | [m, c, a0, a1, a2, a3, r, k] => some ⟨m, c, ⟨a0, a1, a2, a3⟩, r, k⟩
  | _ => none

/-- The sum of a byte sequence as an exact natural number (00_scope R11). -/
def byteSum (bs : List Byte) : Nat := (bs.map BitVec.toNat).sum

/-- `checksum(bytes, n)` (40_codec R63): the seed less the first n bytes, one 8-bit subtraction a byte. Where n is
greater than the number of bytes the spec's function is not defined (see `execChecksum`, which refuses). -/
def checksum (bytes : List Byte) (n : Nat) : Byte :=
  (bytes.take n).foldl (fun c b => c - b) Config.ckSeed

/-- The seven bytes the checksum covers, `f[0..6]` (30_encoding R51). -/
def frameHead (f : WireFrame) : List Byte := (frameBytes f).take Config.ckLen

/-- `Valid(f)` (30_encoding R52): the marker and the checksum, and no other field. -/
abbrev Valid (f : WireFrame) : Prop :=
  f.marker = Config.marker ∧ f.checksum = checksum (frameHead f) Config.ckLen

/-- `encode(command, payload)` (40_codec R66). -/
def encodeFrame (command : Byte) (p : Payload) : WireFrame where
  marker   := Config.marker
  command  := command
  payload  := p
  reserved := Config.reservedValue
  checksum := checksum
    [Config.marker, command, p.p0, p.p1, p.p2, p.p3, Config.reservedValue] Config.ckLen

/-- `decode(f)` (40_codec R69): the marker test, then the checksum test, either failure being `FrameInvalid`. -/
def decodeFrame (f : WireFrame) : Decoded :=
  if f.marker ≠ Config.marker then .frameInvalid
  else if f.checksum ≠ checksum (frameHead f) Config.ckLen then .frameInvalid
  else .ok ⟨f.command, f.payload, f.reserved, f.checksum⟩

/-- `W(f)` (00_scope R11): offset 0 at bits 63:56, offset 7 at bits 7:0. -/
def frameWord (f : WireFrame) : Nat :=
  (frameBytes f).foldl (fun w b => w * 256 + b.toNat) 0

/-- The frame whose `W` is w (bits above 63 are ignored). -/
def frameOfWord (w : Nat) : WireFrame where
  marker   := BitVec.ofNat 8 (w >>> 56)
  command  := BitVec.ofNat 8 (w >>> 48)
  payload  := ⟨BitVec.ofNat 8 (w >>> 40), BitVec.ofNat 8 (w >>> 32), BitVec.ofNat 8 (w >>> 24), BitVec.ofNat 8 (w >>> 16)⟩
  reserved := BitVec.ofNat 8 (w >>> 8)
  checksum := BitVec.ofNat 8 w

/-- The bytes with bit k (7 the most significant, R11) of the byte at offset i flipped: the line error of 40_codec R71
and R72. -/
def flipBit (bs : List Byte) (i : Nat) (k : Fin 8) : List Byte :=
  bs.modify i fun b => b ^^^ BitVec.ofNat 8 (2 ^ k.val)

end Sys2Proof.Machine
end

