-- ==== Sys2Proof/Machine/Operands.lean ====
section
/-! DEFINITION. Operand extraction (30_encoding R54) and the ack frames' payloads (R55), under any parameter set. -/

namespace Sys2Proof.Machine

/-- Configure-Thermocouple's operand, `payload[TC_INDEX]`, raw (R54, R96). -/
def tcOperand (p : Params) (payload : Payload) : Byte := payloadByte payload p.tcIndex

/-- Set-Power's operand, `payload[0]`, raw (R54, R96). -/
def powerOperand (payload : Payload) : Byte := payloadByte payload Config.setPowerIndex

/-- The ack after Configure-Thermocouple with operand v: v at `TC_ACK_INDEX`, the rest zero (R55). -/
def ackConfigTc (p : Params) (v : Byte) : WireFrame := encodeFrame p.ackConfigTc (payloadWith p.tcAckIndex v)

/-- The ack after Set-Power with operand v (R55). -/
def ackSetPower (p : Params) (v : Byte) : WireFrame := encodeFrame p.ackSetPower (payloadWith Config.setPowerIndex v)

/-- The ack after Enable-Automatic-Control (R55). -/
def ackAuto (p : Params) : WireFrame := encodeFrame p.ackAuto zeroPayload

/-- The ack after Enable-Manual-Control (R55). -/
def ackManual (p : Params) : WireFrame := encodeFrame p.ackManual zeroPayload

/-- The ack after Shutdown (R55). -/
def ackShutdown (p : Params) : WireFrame := encodeFrame p.ackShutdown zeroPayload

end Sys2Proof.Machine
end

