-- ==== Sys2Proof/Machine/Ops.lean ====
section
/-! DEFINITION. The shared operations: the three guards, the three buffer primitives (20_memory R34), the pseudocode
primitives emit and outcome (00_scope R12), and the delivery of bytes by the host. There is no exception entry and no
return from one: nothing traps (60_exceptions R100, R109, R110). -/

namespace Sys2Proof.Machine

/-- A parameter set with two equal request codes is refused (00_scope R10). -/
def ifConfigured (s : State) (k : Answer) : Answer :=
  if s.params.Distinct then k else .refused .codesNotDistinct

/-- FEED is defined only under the three invariants (41_assembler R80). -/
def ifInvariant (s : State) (k : Answer) : Answer :=
  if RegInv s then k else .fault .invariantViolated

/-- Both guards of a FEED: the configuration first, then the invariants (the order is log entry 9). -/
def feedGuard (s : State) (k : Answer) : Answer := ifConfigured s (ifInvariant s k)

/-- The row's own condition in the opcode table (log entry 8). -/
def ifSelected (c : Prop) [Decidable c] (k : Answer) : Answer :=
  if c then k else .refused .rowNotSelected

/-- `Append(b)` (20_memory R34): defined where count < FRAME_SIZE. -/
def bufAppend (b : Byte) (s : State) : Option State :=
  if s.count < Config.frameSize then some { s with buf := s.buf ++ [b], count := s.count + 1 } else none

/-- `Take()` (20_memory R34): defined where count = FRAME_SIZE; the candidate frame. -/
def bufTake (s : State) : Option WireFrame :=
  if s.count = Config.frameSize then frameOfBytes s.buf else none

/-- `Clear()` (20_memory R34). -/
def bufClear (s : State) : State := { s with buf := [], count := 0 }

/-- `mode <- m`. -/
def setMode (m : Mode) (s : State) : State := { s with mode := m }

/-- `emit e` (00_scope R12): append to the ordered event list. -/
def emit (e : Event) (s : State) : State := { s with events := s.events ++ [e] }

/-- `outcome <- o; return` (00_scope R12): the transaction's one status value. -/
def finish (o : FeedOutcome) (s : State) : State := { s with outcomes := s.outcomes ++ [o] }

/-- What a codec function run on its own returns (log entry 4). -/
def codecReturn (r : CodecResult) (s : State) : State := { s with codecResult := some r }

/-- Append, and stop where Append is not defined. -/
def withAppended (b : Byte) (s : State) (k : State → Answer) : Answer :=
  match bufAppend b s with
  | some s' => k s'
  | none => .fault .bufferFull

/-- Take the candidate and clear the buffer, and stop where Take is not defined (which the invariants rule out). -/
def withTaken (s : State) (k : WireFrame → State → Answer) : Answer :=
  match bufTake s with
  | some cand => k cand (bufClear s)
  | none => .fault .invariantViolated

/-- The host delivers bytes to the FEED port, in arrival order (20_memory R41). -/
def deliver (bs : List Byte) (s : State) : State := { s with input := s.input ++ bs }

end Sys2Proof.Machine
end

