-- ==== Sys2Proof/Machine/Ack.lean ====
section
/-! DEFINITION. The five ack-frame rows (direction "out"): the block hands one frame to WRITE (42_dispatcher R94). A
dispatch action emits the same frame by the same operation. Log entry 11. -/

namespace Sys2Proof.Machine

/-- Hand an ack to WRITE as one event (42_dispatcher R94). -/
def writeAck (f : WireFrame) (s : State) : State := emit (.write f) s

/-- ACK_CONFIG_TC_FRAME (30_encoding R55, 42_dispatcher R94). -/
def execAckConfigTcFrame (v : Byte) (s : State) : Answer :=
  ifConfigured s (.next (writeAck (ackConfigTc s.params v) s))

/-- ACK_SET_POWER_FRAME. -/
def execAckSetPowerFrame (v : Byte) (s : State) : Answer :=
  ifConfigured s (.next (writeAck (ackSetPower s.params v) s))

/-- ACK_AUTO_FRAME. -/
def execAckAutoFrame (s : State) : Answer :=
  ifConfigured s (.next (writeAck (ackAuto s.params) s))

/-- ACK_MANUAL_FRAME. -/
def execAckManualFrame (s : State) : Answer :=
  ifConfigured s (.next (writeAck (ackManual s.params) s))

/-- ACK_SHUTDOWN_FRAME. -/
def execAckShutdownFrame (s : State) : Answer :=
  ifConfigured s (.next (writeAck (ackShutdown s.params) s))

end Sys2Proof.Machine
end

