-- ==== Sys2Proof/Machine/Dispatcher.lean ====
section
/-! DEFINITION. The Command Dispatcher (42_dispatcher): one meaning per command row, FRAME_INVALID beside them, and
DISPATCH itself. It reads no register of the block and writes none (R85). -/

namespace Sys2Proof.Machine

/-- CONFIG_TC (R87): SetTC before Write (R93). -/
def execConfigTc (payload : Payload) (_reserved : Byte) (s : State) : Answer :=
  let v := tcOperand s.params payload
  ifConfigured s
    (.next (finish .dispatchedConfigTc (writeAck (ackConfigTc s.params v) (emit (.setTc v) s))))

/-- SET_POWER (R88): SetPower before Write (R93). -/
def execSetPower (payload : Payload) (_reserved : Byte) (s : State) : Answer :=
  let v := powerOperand payload
  ifConfigured s
    (.next (finish .dispatchedSetPower (writeAck (ackSetPower s.params v) (emit (.setPower v) s))))

/-- ENABLE_AUTO (R89): a stub, ack only. -/
def execEnableAuto (_payload : Payload) (_reserved : Byte) (s : State) : Answer :=
  ifConfigured s (.next (finish .dispatchedAuto (writeAck (ackAuto s.params) s)))

/-- ENABLE_MANUAL (R90): a stub, ack only. -/
def execEnableManual (_payload : Payload) (_reserved : Byte) (s : State) : Answer :=
  ifConfigured s (.next (finish .dispatchedManual (writeAck (ackManual s.params) s)))

/-- SHUTDOWN (R91): a stub, ack only; the block goes on. -/
def execShutdown (_payload : Payload) (_reserved : Byte) (s : State) : Answer :=
  ifConfigured s (.next (finish .dispatchedShutdown (writeAck (ackShutdown s.params) s)))

/-- UNRECOGNIZED (R92): no event. Its selector is that the command byte equals no request code. -/
def execUnrecognized (command : Byte) (_payload : Payload) (_reserved : Byte) (s : State) : Answer :=
  ifConfigured s (ifSelected (command ∉ s.params.requestCodes) (.next (finish .unrecognized s)))

/-- FRAME_INVALID (41_assembler R79, 60_exceptions R103): no event, nothing recorded. Its selector is `not Valid(f)`. -/
def execFrameInvalid (f : WireFrame) (s : State) : Answer :=
  ifConfigured s (ifSelected (¬ Valid f) (.next (finish .frameInvalid s)))

/-- `DISPATCH(fr)` (R85): the five tests in the pseudocode's order. -/
def dispatch (fr : Frame) (s : State) : Answer :=
  if fr.command = s.params.cmdConfigTc then execConfigTc fr.payload fr.reserved s
  else if fr.command = s.params.cmdSetPower then execSetPower fr.payload fr.reserved s
  else if fr.command = s.params.cmdAuto then execEnableAuto fr.payload fr.reserved s
  else if fr.command = s.params.cmdManual then execEnableManual fr.payload fr.reserved s
  else if fr.command = s.params.cmdShutdown then execShutdown fr.payload fr.reserved s
  else execUnrecognized fr.command fr.payload fr.reserved s

/-- The end of a transaction that completed a candidate (41_assembler R73): decode, then drop or dispatch. -/
def completeCandidate (cand : WireFrame) (s : State) : Answer :=
  match decodeFrame cand with
  | .frameInvalid => execFrameInvalid cand s
  | .ok fr => dispatch fr s

end Sys2Proof.Machine
end

