-- ==== Sys2Proof/Machine/Assembler.lean ====
section
/-! DEFINITION. The Frame Assembler (41_assembler): the four cases of the FEED transaction. -/

namespace Sys2Proof.Machine

/-- FEED_NOISE (R74): writes nothing. -/
def execFeedNoise (b : Byte) (s : State) : Answer :=
  feedGuard s (ifSelected (s.mode = .seeking ∧ b ≠ Config.marker) (.next (finish .noiseDiscarded s)))

/-- FEED_START (R75): the marker is appended and the mode changes in one step (10_state R23). -/
def execFeedStart (s : State) : Answer :=
  feedGuard s (ifSelected (s.mode = .seeking)
    (withAppended Config.marker s fun s1 => .next (finish .frameStarted (setMode .accumulating s1))))

/-- FEED_DATA (R76): any byte, the marker too (R78). -/
def execFeedData (b : Byte) (s : State) : Answer :=
  feedGuard s (ifSelected (s.mode = .accumulating ∧ s.count + 1 < Config.frameSize)
    (withAppended b s fun s1 => .next (finish .byteAccumulated s1)))

/-- FEED_END (R77): the candidate is formed, the registers go back to their reset values whatever decode says (70_reset
R119), and decode and dispatch run in the same transaction. -/
def execFeedEnd (b : Byte) (s : State) : Answer :=
  feedGuard s (ifSelected (s.mode = .accumulating ∧ s.count + 1 = Config.frameSize)
    (withAppended b s fun s1 => withTaken s1 fun cand s2 => completeCandidate cand (setMode .seeking s2)))

end Sys2Proof.Machine
end

