-- ==== Sys2Proof/Machine/CodecOps.lean ====
section
/-! DEFINITION. The three codec rows (40_codec): each reads and writes no state of the block (10_state R26) and leaves what
it returns in codecResult. -/

namespace Sys2Proof.Machine

/-- CHECKSUM (40_codec R63): refused where n > len(bytes). -/
def execChecksum (bytes : List Byte) (n : Nat) (s : State) : Answer :=
  if n ≤ bytes.length then .next (codecReturn (.byte (checksum bytes n)) s)
  else .refused .checksumOutOfDomain

/-- ENCODE (40_codec R66): total. -/
def execEncode (command : Byte) (payload : Payload) (s : State) : Answer :=
  .next (codecReturn (.frame (encodeFrame command payload)) s)

/-- DECODE (40_codec R69). -/
def execDecode (f : WireFrame) (s : State) : Answer :=
  .next (codecReturn (.decoded (decodeFrame f)) s)

end Sys2Proof.Machine
end

