-- ==== Sys2Proof/Machine/Dispatch.lean ====
section
/-! DEFINITION. One arm per constructor of Instr, each one call of its meaning. -/

namespace Sys2Proof.Machine

def exec (i : Instr) (s : State) : Host.Outcome State Fault Refusal :=
  match i with
  | .feedNoise b => Sys2Proof.Machine.execFeedNoise b s
  | .feedStart => Sys2Proof.Machine.execFeedStart s
  | .feedData b => Sys2Proof.Machine.execFeedData b s
  | .feedEnd b => Sys2Proof.Machine.execFeedEnd b s
  | .configTc payload reserved => Sys2Proof.Machine.execConfigTc payload reserved s
  | .setPower payload reserved => Sys2Proof.Machine.execSetPower payload reserved s
  | .enableAuto payload reserved => Sys2Proof.Machine.execEnableAuto payload reserved s
  | .enableManual payload reserved => Sys2Proof.Machine.execEnableManual payload reserved s
  | .shutdown payload reserved => Sys2Proof.Machine.execShutdown payload reserved s
  | .unrecognized command payload reserved => Sys2Proof.Machine.execUnrecognized command payload reserved s
  | .frameInvalid f => Sys2Proof.Machine.execFrameInvalid f s
  | .ackConfigTcFrame v => Sys2Proof.Machine.execAckConfigTcFrame v s
  | .ackSetPowerFrame v => Sys2Proof.Machine.execAckSetPowerFrame v s
  | .ackAutoFrame => Sys2Proof.Machine.execAckAutoFrame s
  | .ackManualFrame => Sys2Proof.Machine.execAckManualFrame s
  | .ackShutdownFrame => Sys2Proof.Machine.execAckShutdownFrame s
  | .checksum bytes n => Sys2Proof.Machine.execChecksum bytes n s
  | .encode command payload => Sys2Proof.Machine.execEncode command payload s
  | .decode f => Sys2Proof.Machine.execDecode f s

end Sys2Proof.Machine
end

