-- ==== Sys2Proof/WellFormed.lean ====
section
/-! DEFINITION. Which terms are rows of the table under a parameter set, and at which place a row's encoding is read. -/

namespace Sys2Proof

/-- The row's own condition on its operands (spec/opcode_table.json, "condition", "selector", "requires"):
a noise byte is not the marker (R74); an unrecognized command equals no request code (R92); an invalid frame is not valid
(R79); CHECKSUM reads no more bytes than there are (R63). The other rows admit every operand. -/
def wellFormed (p : Params) (i : Instr) : Bool :=
  match i with
  | .feedNoise b => b ≠ Config.marker
  | .feedStart => true
  | .feedData _ => true
  | .feedEnd _ => true
  | .configTc _ _ => true
  | .setPower _ _ => true
  | .enableAuto _ _ => true
  | .enableManual _ _ => true
  | .shutdown _ _ => true
  | .unrecognized c _ _ => c ∉ p.requestCodes
  | .frameInvalid f => ¬ Machine.Valid f
  | .ackConfigTcFrame _ => true
  | .ackSetPowerFrame _ => true
  | .ackAutoFrame => true
  | .ackManualFrame => true
  | .ackShutdownFrame => true
  | .checksum bytes n => n ≤ bytes.length
  | .encode _ _ => true
  | .decode _ => true

/-- The places where a row's encoding can stand: the FEED rows by mode and count (30_encoding R56 and the table's
conditions), the inbound and outbound frame rows by their "direction" (R62), the codec rows nowhere. -/
def siteFits (at_ : Site) (i : Instr) : Bool :=
  match i with
  | .feedNoise _ | .feedStart => match at_ with | .feed .seeking _ => true | _ => false
  | .feedData _ => match at_ with | .feed .accumulating k => k + 1 < Config.frameSize | _ => false
  | .feedEnd _ => match at_ with | .feed .accumulating k => k + 1 = Config.frameSize | _ => false
  | .configTc _ _ | .setPower _ _ | .enableAuto _ _ | .enableManual _ _ | .shutdown _ _ | .unrecognized _ _ _
  | .frameInvalid _ => match at_ with | .inbound => true | _ => false
  | .ackConfigTcFrame _ | .ackSetPowerFrame _ | .ackAutoFrame | .ackManualFrame
  | .ackShutdownFrame => match at_ with | .outbound => true | _ => false
  | .checksum _ _ | .encode _ _ | .decode _ => false

end Sys2Proof
end

