-- ==== Sys2Proof/Decode.lean ====
section
/-! DEFINITION. The instruction decoder, total on any bytes at any site, and after it the encoder. -/

namespace Sys2Proof

/-- The class of a fed byte (30_encoding R56). The table's FEED_DATA row admits a count of 0 as R73 does
(log entry 7); a count of 8 or more has no row (log entry 6). -/
def decodeFedByte (mode : Mode) (count : Nat) (b : Byte) : Except DecodeError Instr :=
  match mode with
  | .seeking => if b = Config.marker then .ok .feedStart else .ok (.feedNoise b)
  | .accumulating =>
    if count + 1 < Config.frameSize then .ok (.feedData b)
    else if count + 1 = Config.frameSize then .ok (.feedEnd b)
    else .error .bufferFull

/-- The dispatch table (30_encoding R53): a request code and the row it selects. -/
def commandRows (p : Params) : List (Byte × (Payload → Byte → Instr)) :=
  [(p.cmdConfigTc, Instr.configTc), (p.cmdSetPower, Instr.setPower), (p.cmdAuto, Instr.enableAuto),
   (p.cmdManual, Instr.enableManual), (p.cmdShutdown, Instr.shutdown)]

/-- Command selection (30_encoding R53): the row whose code equals the command byte, else UNRECOGNIZED. -/
def selectCommand (p : Params) (fr : Frame) : Instr :=
  match (commandRows p).find? (fun row => row.1 == fr.command) with
  | some row => row.2 fr.payload fr.reserved
  | none => .unrecognized fr.command fr.payload fr.reserved

/-- The row of a completed candidate: validity first, then the command (60_exceptions R107). A parameter set with two
equal request codes has no rows (00_scope R10). -/
def decodeCandidate (p : Params) (f : WireFrame) : Except DecodeError Instr :=
  if p.Distinct then
    match Machine.decodeFrame f with
    | .frameInvalid => .ok (.frameInvalid f)
    | .ok fr => .ok (selectCommand p fr)
  else .error .codesNotDistinct

/-- The ack row a frame on WRITE belongs to (30_encoding R55): the first of the five ack frames it equals. Where two ack
codes coincide two rows may share a frame, and the first is answered (log entry 11). -/
def decodeWritten (p : Params) (f : WireFrame) : Except DecodeError Instr :=
  if f = Machine.ackConfigTc p (Machine.payloadByte f.payload p.tcAckIndex) then
    .ok (.ackConfigTcFrame (Machine.payloadByte f.payload p.tcAckIndex))
  else if f = Machine.ackSetPower p (Machine.payloadByte f.payload Config.setPowerIndex) then
    .ok (.ackSetPowerFrame (Machine.payloadByte f.payload Config.setPowerIndex))
  else if f = Machine.ackAuto p then .ok .ackAutoFrame
  else if f = Machine.ackManual p then .ok .ackManualFrame
  else if f = Machine.ackShutdown p then .ok .ackShutdownFrame
  else .error .notAnAck

/-- The decoder: the row that these bytes are at this site, or why there is none. -/
def decode (p : Params) (at_ : Site) (bytes : List Byte) : Except DecodeError Instr :=
  match at_ with
  | .feed mode count =>
    match bytes with
    | [b] => decodeFedByte mode count b
    | _ => .error .notOneByte
  | .inbound =>
    match Machine.frameOfBytes bytes with
    | some f => decodeCandidate p f
    | none => .error .notOneFrame
  | .outbound =>
    match Machine.frameOfBytes bytes with
    | some f => decodeWritten p f
    | none => .error .notOneFrame

/-- A valid inbound frame with these three fields (30_encoding R46, R52); its checksum is the one that makes it valid. -/
def validFrame (command : Byte) (payload : Payload) (reserved : Byte) : WireFrame where
  marker   := Config.marker
  command  := command
  payload  := payload
  reserved := reserved
  checksum := Machine.checksum
    [Config.marker, command, payload.p0, payload.p1, payload.p2, payload.p3, reserved] Config.ckLen

/-- The encoder: the bytes of a row, in wire order; none for the codec rows, which have no encoding (R62). -/
def encode (p : Params) (i : Instr) : Option (List Byte) :=
  match i with
  | .feedNoise b => some [b]
  | .feedStart => some [Config.marker]
  | .feedData b => some [b]
  | .feedEnd b => some [b]
  | .configTc payload reserved => some (Machine.frameBytes (validFrame p.cmdConfigTc payload reserved))
  | .setPower payload reserved => some (Machine.frameBytes (validFrame p.cmdSetPower payload reserved))
  | .enableAuto payload reserved => some (Machine.frameBytes (validFrame p.cmdAuto payload reserved))
  | .enableManual payload reserved => some (Machine.frameBytes (validFrame p.cmdManual payload reserved))
  | .shutdown payload reserved => some (Machine.frameBytes (validFrame p.cmdShutdown payload reserved))
  | .unrecognized c payload reserved => some (Machine.frameBytes (validFrame c payload reserved))
  | .frameInvalid f => some (Machine.frameBytes f)
  | .ackConfigTcFrame v => some (Machine.frameBytes (Machine.ackConfigTc p v))
  | .ackSetPowerFrame v => some (Machine.frameBytes (Machine.ackSetPower p v))
  | .ackAutoFrame => some (Machine.frameBytes (Machine.ackAuto p))
  | .ackManualFrame => some (Machine.frameBytes (Machine.ackManual p))
  | .ackShutdownFrame => some (Machine.frameBytes (Machine.ackShutdown p))
  | .checksum _ _ => none
  | .encode _ _ => none
  | .decode _ => none

/-- The row a table word is (the fixed name the host reads). 8 bits: one byte at the FEED port of a block in SEEKING, as
after reset. 64 bits: a completed candidate in the table's own notation W, offset 0 at bits 63:56 (00_scope R11), under
the parameters of the reset state. No row has another width. DESIGN CHOICE, log entry 10. -/
def decodeTableWord (nbits w : Nat) : Option Instr :=
  if nbits = 8 then
    match decode Config.tieOff (.feed .seeking 0) [BitVec.ofNat 8 w] with
    | .ok i => some i
    | .error _ => none
  else if nbits = 64 then
    match decode Config.tieOff .inbound (Machine.frameBytes (Machine.frameOfWord w)) with
    | .ok i => some i
    | .error _ => none
  else none

end Sys2Proof
end

