-- ==== Sys2Proof/Machine/Fetch.lean ====
section
/-! DEFINITION. Where the next instruction comes from. The block has no program store and no program counter (20_memory
R45): what a step takes is the oldest byte at the FEED port (R41). -/

namespace Sys2Proof.Machine

/-- The oldest byte at the FEED port, classified by the registers (30_encoding R56), and the state with that byte taken;
none where no byte waits. -/
def fetch (s : State) : Option (Except DecodeError Instr × State) :=
  match s.input with
  | [] => none
  | b :: rest => some (decode s.params (.feed s.mode s.count) [b], { s with input := rest })

/-- A fed byte that is no row of the table: the buffer is already full (20_memory R34), log entry 6. -/
def stopUndecoded (e : DecodeError) : Answer :=
  match e with
  | .codesNotDistinct => .refused .codesNotDistinct
  | .bufferFull | .notOneByte | .notOneFrame | .notAnAck => .fault .bufferFull

/-- A table word placed so that the very next step takes it (the fixed name State.withFetchWord; log entries 2 and 10).
8 bits: the byte is the oldest at the FEED port of a block in SEEKING. 64 bits, the table's W: the first seven bytes are
already accumulated and the eighth is the oldest at the FEED port, so that the step completes, decodes and dispatches the
candidate. Any other width places nothing. -/
def placeTableWord (nbits w : Nat) (s : State) : State :=
  if nbits = 8 then
    { s with mode := .seeking, count := 0, buf := [], input := BitVec.ofNat 8 w :: s.input }
  else if nbits = 64 then
    { s with
      mode := .accumulating
      count := 7
      buf := frameHead (frameOfWord w)
      input := (frameOfWord w).checksum :: s.input }
  else s

end Sys2Proof.Machine
end

