-- ==== Sys2Proof/Machine/Step.lean ====
section
/-! DEFINITION. One step: one FEED transaction on the oldest byte at the FEED port (00_scope R13, 41_assembler R73), or
nothing where no byte waits (60_exceptions R116, log entry 5). -/

namespace Sys2Proof.Machine

def step (s : State) : Host.Outcome State Fault Refusal :=
  feedGuard s (match fetch s with
    | none => .next s
    | some (.ok i, s1) => exec i s1
    | some (.error e, _) => stopUndecoded e)

/-- The word w of nbits bits of the opcode table, placed where the next step takes it. -/
def State.withFetchWord (s : State) (nbits w : Nat) : State := placeTableWord nbits w s

end Sys2Proof.Machine
end

