-- ==== Sys2Proof/Machine/Transaction.lean ====
section
/-! DEFINITION. The FEED transaction as the spec's own signature `feed : Params -> State -> Byte -> (State x List Event x
Outcome)` (00_scope R14), written from the pseudocode of 41_assembler R73 and 42_dispatcher R85 alone, without the opcode
table's rows. The machine's step does not call it: it is what the step is stated to refine. -/

namespace Sys2Proof.Machine

/-- The block's whole state (10_state R15). -/
structure Registers where
  mode  : Mode
  count : Nat
  buf   : List Byte
deriving DecidableEq, Repr

/-- The registers of a state. -/
def registers (s : State) : Registers := ⟨s.mode, s.count, s.buf⟩

/-- The registers' reset values (70_reset R117). -/
def resetRegisters : Registers := ⟨.seeking, 0, []⟩

/-- DISPATCH (42_dispatcher R85 to R92) as a function of the record and the parameters only (10_state R27). -/
def dispatchSpec (p : Params) (fr : Frame) : List Event × FeedOutcome :=
  if fr.command = p.cmdConfigTc then
    ([.setTc (tcOperand p fr.payload), .write (ackConfigTc p (tcOperand p fr.payload))], .dispatchedConfigTc)
  else if fr.command = p.cmdSetPower then
    ([.setPower (powerOperand fr.payload), .write (ackSetPower p (powerOperand fr.payload))], .dispatchedSetPower)
  else if fr.command = p.cmdAuto then ([.write (ackAuto p)], .dispatchedAuto)
  else if fr.command = p.cmdManual then ([.write (ackManual p)], .dispatchedManual)
  else if fr.command = p.cmdShutdown then ([.write (ackShutdown p)], .dispatchedShutdown)
  else ([], .unrecognized)

/-- What a completed candidate emits (41_assembler R73, last case). -/
def candidateSpec (p : Params) (cand : WireFrame) : List Event × FeedOutcome :=
  match decodeFrame cand with
  | .frameInvalid => ([], .frameInvalid)
  | .ok fr => dispatchSpec p fr

/-- `FEED(b)`, the whole transaction (41_assembler R73), as a function of the registers. Under the invariants and a count
of at most 7 the completed buffer is always eight bytes; the answer for any other length means nothing. -/
def feedSpec (p : Params) (r : Registers) (b : Byte) : Registers × List Event × FeedOutcome :=
  match r.mode with
  | .seeking =>
    if b ≠ Config.marker then (r, [], .noiseDiscarded)
    else (⟨.accumulating, 1, [b]⟩, [], .frameStarted)
  | .accumulating =>
    if r.count + 1 < Config.frameSize then (⟨.accumulating, r.count + 1, r.buf ++ [b]⟩, [], .byteAccumulated)
    else match frameOfBytes (r.buf ++ [b]) with
      | some cand => (resetRegisters, candidateSpec p cand)
      | none => (resetRegisters, [], .frameInvalid)

end Sys2Proof.Machine
end

