-- ==== Sys2Proof/Machine/Flags.lean ====
section
/-! DEFINITION. The block has no condition codes (10_state R29). What stands in their place: the outcome value, its number
(60_exceptions R101), and the count of drops a host may keep from it (R115). -/

namespace Sys2Proof.Machine

/-- The outcome's code (60_exceptions R101, D30). -/
def outcomeCode (o : FeedOutcome) : Nat :=
  match o with
  | .noiseDiscarded => 0
  | .frameStarted => 1
  | .byteAccumulated => 2
  | .frameInvalid => 3
  | .unrecognized => 4
  | .dispatchedConfigTc => 5
  | .dispatchedSetPower => 6
  | .dispatchedAuto => 7
  | .dispatchedManual => 8
  | .dispatchedShutdown => 9

/-- The three error kinds: outcomes 0, 3 and 4 (60_exceptions R101 to R104). -/
def outcomeIsDrop (o : FeedOutcome) : Bool :=
  match o with
  | .noiseDiscarded | .frameInvalid | .unrecognized => true
  | _ => false

/-- The outcomes of a recognized command: 5 to 9 (R101). -/
def outcomeIsDispatch (o : FeedOutcome) : Bool :=
  match o with
  | .dispatchedConfigTc | .dispatchedSetPower | .dispatchedAuto | .dispatchedManual | .dispatchedShutdown => true
  | _ => false

/-- How many drops the OUTCOME port has shown (60_exceptions R115). -/
def dropCount (s : State) : Nat := s.outcomes.countP outcomeIsDrop

end Sys2Proof.Machine
end

