-- ==== Sys2Proof/Machine/Ports.lean ====
section
/-! DEFINITION. The ports (10_state R16): which event is delivered where, with what bytes, and what each output port has
carried so far. -/

namespace Sys2Proof.Machine

/-- The output ports that carry events (10_state R16, R17). -/
inductive OutPort where
  | write
  | setTc
  | setPower
deriving DecidableEq, Repr

/-- The port an event is delivered on (10_state R17). -/
def eventPort (e : Event) : OutPort :=
  match e with
  | .setTc _ => .setTc
  | .setPower _ => .setPower
  | .write _ => .write

/-- The bytes an event carries, in wire order (20_memory R35, R36). -/
def eventBytes (e : Event) : List Byte :=
  match e with
  | .setTc v => [v]
  | .setPower v => [v]
  | .write f => frameBytes f

/-- The bytes a port has carried so far, in order (20_memory R39, R42). -/
def portBytes (port : OutPort) (es : List Event) : List Byte :=
  (es.filter (fun e => eventPort e = port)).flatMap eventBytes

/-- The frames written so far, in order (42_dispatcher R98). -/
def writtenFrames (es : List Event) : List WireFrame :=
  es.filterMap fun e => match e with
    | .write f => some f
    | _ => none

/-- Is it an actuator event (10_state R17)? -/
def isActuatorEvent (e : Event) : Bool := eventPort e ≠ .write

end Sys2Proof.Machine
end

