-- ==== Sys2Proof/Machine/Run.lean ====
section
/-! DEFINITION. Runs of finitely many steps (70_reset R130: a claim is about a finite FEED sequence). -/

namespace Sys2Proof.Machine

/-- k steps, stopping at the first fault or refusal. -/
def runSteps (k : Nat) (s : State) : Answer :=
  match k with
  | 0 => .next s
  | k + 1 =>
    match step s with
    | .next t => runSteps k t
    | .fault r => .fault r
    | .refused r => .refused r

/-- The host feeds bytes to a block with nothing waiting, one transaction each (10_state R16). -/
def feedBytes (bs : List Byte) (s : State) : Answer := runSteps bs.length (deliver bs s)

end Sys2Proof.Machine
end

