-- ==== Sys2Proof/Safety.lean ====
section
/-! DEFINITION. What counts as a safe run, and the whole-machine notions the statements use. -/

namespace Sys2Proof.Machine

/-- The block goes on: neither a fault nor a refusal (60_exceptions R100). -/
def Safe (s : State) : Prop := ∃ t, step s = .next t

/-- The states a host can bring about under a parameter set: reset, deliveries to the FEED port, steps (70_reset R118). -/
inductive Reachable (p : Params) : State → Prop where
  | reset : Reachable p (State.resetWith p)
  | delivered {s : State} (bs : List Byte) : Reachable p s → Reachable p (deliver bs s)
  | stepped {s t : State} : Reachable p s → step s = .next t → Reachable p t

/-- The events an outcome comes with (60_exceptions R101, last column), under the parameters and for some operand. -/
def outcomeExplains (p : Params) (o : FeedOutcome) (es : List Event) : Bool :=
  match o, es with
  | .noiseDiscarded, [] | .frameStarted, [] | .byteAccumulated, [] | .frameInvalid, [] | .unrecognized, [] => true
  | .dispatchedConfigTc, [.setTc v, .write f] => f = ackConfigTc p v
  | .dispatchedSetPower, [.setPower v, .write f] => f = ackSetPower p v
  | .dispatchedAuto, [.write f] => f = ackAuto p
  | .dispatchedManual, [.write f] => f = ackManual p
  | .dispatchedShutdown, [.write f] => f = ackShutdown p
  | _, _ => false

/-- How many events an outcome comes with. -/
def outcomeWidth (o : FeedOutcome) : Nat :=
  match o with
  | .dispatchedConfigTc | .dispatchedSetPower => 2
  | .dispatchedAuto | .dispatchedManual | .dispatchedShutdown => 1
  | _ => 0

/-- The event trace is, outcome by outcome and in order, exactly what the outcomes explain (20_memory R42, 42_dispatcher
R86, R98). -/
def traceAccounted (p : Params) (os : List FeedOutcome) (es : List Event) : Bool :=
  match os with
  | [] => es.isEmpty
  | o :: rest => outcomeExplains p o (es.take (outcomeWidth o)) && traceAccounted p rest (es.drop (outcomeWidth o))

end Sys2Proof.Machine
end

