-- ==== Sys2Proof/Certificates/Slice0/Obligations.lean ====
section
/-! DEFINITION. The statements for the provers. Each quantifies over every parameter set the spec accepts (00_scope R9,
R10): the parameters are a field of the state. -/

open Sys2Proof Sys2Proof.Machine

/-! ## Reset, invariants, guards -/

/-- 70_reset R117: mode SEEKING, count 0, buf empty, nothing pending; under any tie-off, and State.reset is the one of
log entry 1. -/
def Obligations.ResetHoldsTheSpecValues : Prop :=
  (∀ p : Params,
    (State.resetWith p).mode = .seeking ∧ (State.resetWith p).count = 0 ∧ (State.resetWith p).buf = [] ∧
    (State.resetWith p).events = [] ∧ (State.resetWith p).outcomes = [] ∧ (State.resetWith p).input = [] ∧
    (State.resetWith p).params = p) ∧
  State.reset = State.resetWith Config.tieOff

/-- 10_state R21 to R24 hold of the state right after reset, under any tie-off. -/
def Obligations.ResetMeetsTheInvariants : Prop :=
  ∀ p : Params, RegInv (State.resetWith p) ∧ Boundary (State.resetWith p)

/-- 10_state R24: the shape of every reachable state between transactions; every step keeps it, from any state of that
shape, reached or not. -/
def Obligations.StepKeepsTheBoundaryShape : Prop :=
  (∀ s t : State, Boundary s → step s = .next t → Boundary t) ∧
  (∀ (p : Params) (s : State), Reachable p s →
    ((s.mode = .seeking ∧ s.count = 0 ∧ s.buf = []) ∨
      (s.mode = .accumulating ∧ 1 ≤ s.count ∧ s.count ≤ 7 ∧ s.buf.length = s.count ∧ s.buf[0]? = some 0x7E#8)) ∧
    (s.mode = .seeking ↔ s.count = 0) ∧ s.count ≠ 8)

/-- 41_assembler R80: the three invariants hold at reset, every step keeps them, and a state that breaks one has no next
state: the step answers the fault (or, where R10 already refuses the parameter set, the refusal: log entry 9). -/
def Obligations.InvariantGuard : Prop :=
  (∀ p : Params, RegInv (State.resetWith p)) ∧
  (∀ s t : State, RegInv s → step s = .next t → RegInv t) ∧
  (∀ s : State, s.params.Distinct →
    ¬ (s.count = s.buf.length ∧ s.count ≤ 8 ∧ (s.mode = .seeking → s.buf = [] ∧ s.count = 0)) →
    step s = .fault .invariantViolated) ∧
  (∀ s t : State, ¬ RegInv s → step s ≠ .next t)

/-- 00_scope R10: the step refuses a parameter set exactly where two of the five request codes are equal; nothing else in
it is constrained, the ack codes included. In a state that also breaks I-LEN, I-BOUND or I-SEEK, where 41_assembler R80 asks
for the fault, the refusal comes first by the model's choice, and it comes in an idle step too (log entry 9). -/
def Obligations.EqualRequestCodesAreRefused : Prop :=
  ∀ s : State, step s = .refused .codesNotDistinct ↔
    ¬ (s.params.cmdConfigTc ≠ s.params.cmdSetPower ∧ s.params.cmdConfigTc ≠ s.params.cmdAuto ∧
       s.params.cmdConfigTc ≠ s.params.cmdManual ∧ s.params.cmdConfigTc ≠ s.params.cmdShutdown ∧
       s.params.cmdSetPower ≠ s.params.cmdAuto ∧ s.params.cmdSetPower ≠ s.params.cmdManual ∧
       s.params.cmdSetPower ≠ s.params.cmdShutdown ∧ s.params.cmdAuto ≠ s.params.cmdManual ∧
       s.params.cmdAuto ≠ s.params.cmdShutdown ∧ s.params.cmdManual ≠ s.params.cmdShutdown)

/-- A step is exec of the row its oldest waiting byte decodes to, on the state with that byte taken. -/
def Obligations.StepRunsTheDecodedRow : Prop :=
  ∀ (s : State) (b : Byte) (rest : List Byte) (i : Instr), Ready s → s.input = b :: rest →
    decode s.params (.feed s.mode s.count) [b] = .ok i → step s = exec i { s with input := rest }

/-- 60_exceptions R116, 41_assembler R82: with no byte waiting the block holds its state (the model's choice of what a
step is then: log entry 5). -/
def Obligations.IdleBlockHoldsItsState : Prop :=
  ∀ (s : State) (k : Nat), Ready s → s.input = [] → runSteps k s = .next s

/-- 30_encoding R57, 60_exceptions R100: nothing stops the block; every state of the boundary shape has a next state,
whatever byte comes, and so does every reachable state. Where no byte waits (60_exceptions R116), that the idle moment is a
step at all is the model's choice (log entry 5). -/
def Obligations.NothingStopsTheBlock : Prop :=
  (∀ s : State, s.params.Distinct → Boundary s → ∃ t, step s = .next t) ∧
  (∀ (p : Params) (s : State), p.Distinct → Reachable p s → Safe s)

/-- 20_memory R34, 10_state R24: in ACCUMULATING with eight bytes already held no row exists, Append is not defined, and
a step with a byte waiting is the fault of log entry 6. -/
def Obligations.AppendToAFullBufferFaults : Prop :=
  ∀ (s : State) (b : Byte) (rest : List Byte), Ready s → s.mode = .accumulating → s.count = 8 → s.input = b :: rest →
    step s = .fault .bufferFull

/-! ## The FEED transaction, case by case -/

/-- 41_assembler R74. -/
def Obligations.NoiseIsDiscarded : Prop :=
  ∀ (s : State) (b : Byte), Ready s → s.mode = .seeking → b ≠ 0x7E#8 →
    exec (.feedNoise b) s = .next { s with outcomes := s.outcomes ++ [.noiseDiscarded] }

/-- 41_assembler R75. -/
def Obligations.MarkerStartsAFrame : Prop :=
  ∀ s : State, Ready s → s.mode = .seeking →
    exec .feedStart s = .next { s with
      buf := [0x7E#8], count := 1, mode := .accumulating, outcomes := s.outcomes ++ [.frameStarted] }

/-- 41_assembler R76, for any byte, the marker included. A count of 0, which R76 does not list and R73 and the table's condition
"count <= 6" do, is the model's reading (log entry 7). -/
def Obligations.FrameDataIsAppended : Prop :=
  ∀ (s : State) (b : Byte), Ready s → s.mode = .accumulating → s.count ≤ 6 →
    exec (.feedData b) s = .next { s with
      buf := s.buf ++ [b], count := s.count + 1, outcomes := s.outcomes ++ [.byteAccumulated] }

/-- 41_assembler R77 and R79: the candidate is buf ++ [b], the registers go back to their reset values whatever decode
says, and the events and the outcome are those of the candidate, of which an invalid one has no event and FRAME_INVALID;
a candidate whose first byte was accumulated as the marker fails by its checksum only. -/
def Obligations.FrameEndCompletesTheCandidate : Prop :=
  ∀ (s : State) (b : Byte), Ready s → s.mode = .accumulating → s.count = 7 →
    ∃ cand, frameBytes cand = s.buf ++ [b] ∧
      exec (.feedEnd b) s = .next { s with
        mode := .seeking, count := 0, buf := [],
        events := s.events ++ (candidateSpec s.params cand).1,
        outcomes := s.outcomes ++ [(candidateSpec s.params cand).2] } ∧
      (decodeFrame cand = .frameInvalid → candidateSpec s.params cand = ([], .frameInvalid)) ∧
      (s.buf.head? = some 0x7E#8 →
        (decodeFrame cand = .frameInvalid ↔ b ≠ checksum s.buf 7))

/-- The table's FEED_END row: "then decode the 8-byte candidate and use the frame rows". -/
def Obligations.FrameEndRunsTheFrameRow : Prop :=
  ∀ (s : State) (b : Byte), Ready s → s.mode = .accumulating → s.count = 7 →
    ∃ i, decode s.params .inbound (s.buf ++ [b]) = .ok i ∧
      exec (.feedEnd b) s = exec i { s with mode := .seeking, count := 0, buf := [] }

/-- The table's conditions on the FEED rows: run where its condition fails, a FEED row is refused by name (the model's
choice, log entry 8). -/
def Obligations.FeedRowsRunOnlyWhereSelected : Prop :=
  ∀ (s : State) (b : Byte), Ready s →
    (¬ (s.mode = .seeking ∧ b ≠ 0x7E#8) → exec (.feedNoise b) s = .refused .rowNotSelected) ∧
    (s.mode = .accumulating → exec .feedStart s = .refused .rowNotSelected) ∧
    (¬ (s.mode = .accumulating ∧ s.count ≤ 6) → exec (.feedData b) s = .refused .rowNotSelected) ∧
    (¬ (s.mode = .accumulating ∧ s.count = 7) → exec (.feedEnd b) s = .refused .rowNotSelected)

/-! ## The dispatch actions -/

/-- 42_dispatcher R87: SetTC with the raw operand, then the ack that echoes it, then the outcome; nothing else. -/
def Obligations.ConfigureThermocouple : Prop :=
  ∀ (s : State) (payload : Payload) (reserved : Byte), s.params.Distinct →
    exec (.configTc payload reserved) s = .next { s with
      events := s.events ++ [.setTc (payloadByte payload s.params.tcIndex),
        .write (encodeFrame s.params.ackConfigTc
          (payloadWith s.params.tcAckIndex (payloadByte payload s.params.tcIndex)))],
      outcomes := s.outcomes ++ [.dispatchedConfigTc] }

/-- 42_dispatcher R88. -/
def Obligations.SetPower : Prop :=
  ∀ (s : State) (payload : Payload) (reserved : Byte), s.params.Distinct →
    exec (.setPower payload reserved) s = .next { s with
      events := s.events ++ [.setPower payload.p0,
        .write (encodeFrame s.params.ackSetPower ⟨payload.p0, 0x00#8, 0x00#8, 0x00#8⟩)],
      outcomes := s.outcomes ++ [.dispatchedSetPower] }

/-- 42_dispatcher R89, R90, R91: the three stubs acknowledge with a zero payload, touch no actuator and change no
register; Shutdown does not stop the block. -/
def Obligations.StubCommandsOnlyAcknowledge : Prop :=
  ∀ (s : State) (payload : Payload) (reserved : Byte), s.params.Distinct →
    exec (.enableAuto payload reserved) s = .next { s with
      events := s.events ++ [.write (encodeFrame s.params.ackAuto ⟨0x00#8, 0x00#8, 0x00#8, 0x00#8⟩)],
      outcomes := s.outcomes ++ [.dispatchedAuto] } ∧
    exec (.enableManual payload reserved) s = .next { s with
      events := s.events ++ [.write (encodeFrame s.params.ackManual ⟨0x00#8, 0x00#8, 0x00#8, 0x00#8⟩)],
      outcomes := s.outcomes ++ [.dispatchedManual] } ∧
    exec (.shutdown payload reserved) s = .next { s with
      events := s.events ++ [.write (encodeFrame s.params.ackShutdown ⟨0x00#8, 0x00#8, 0x00#8, 0x00#8⟩)],
      outcomes := s.outcomes ++ [.dispatchedShutdown] }

/-- 42_dispatcher R92: an unknown command emits nothing; the row is refused by name where its code is a request code
(the model's choice, log entry 8). -/
def Obligations.UnrecognizedIsDropped : Prop :=
  ∀ (s : State) (c : Byte) (payload : Payload) (reserved : Byte), s.params.Distinct →
    ((c ≠ s.params.cmdConfigTc ∧ c ≠ s.params.cmdSetPower ∧ c ≠ s.params.cmdAuto ∧ c ≠ s.params.cmdManual ∧
        c ≠ s.params.cmdShutdown) →
      exec (.unrecognized c payload reserved) s = .next { s with outcomes := s.outcomes ++ [.unrecognized] }) ∧
    ((c = s.params.cmdConfigTc ∨ c = s.params.cmdSetPower ∨ c = s.params.cmdAuto ∨ c = s.params.cmdManual ∨
        c = s.params.cmdShutdown) →
      exec (.unrecognized c payload reserved) s = .refused .rowNotSelected)

/-- 41_assembler R79, 60_exceptions R103: an invalid frame emits nothing and nothing of it is recorded; the row is refused
by name where the frame is valid (log entry 8). -/
def Obligations.InvalidFrameIsDropped : Prop :=
  ∀ (s : State) (f : WireFrame), s.params.Distinct →
    (decodeFrame f = .frameInvalid →
      exec (.frameInvalid f) s = .next { s with outcomes := s.outcomes ++ [.frameInvalid] }) ∧
    (decodeFrame f ≠ .frameInvalid → exec (.frameInvalid f) s = .refused .rowNotSelected)

/-- 42_dispatcher R94: each ack row hands exactly one frame to WRITE, with the offsets as the rule lists them, and that
frame is valid. That an ack row runs on its own, with no outcome, is the model's choice (log entry 11). -/
def Obligations.AckRowsWriteOneValidFrame : Prop :=
  ∀ (s : State) (v : Byte), s.params.Distinct →
    exec (.ackConfigTcFrame v) s = .next { s with
      events := s.events ++ [.write (encodeFrame s.params.ackConfigTc (payloadWith s.params.tcAckIndex v))] } ∧
    exec (.ackSetPowerFrame v) s = .next { s with
      events := s.events ++ [.write (encodeFrame s.params.ackSetPower ⟨v, 0x00#8, 0x00#8, 0x00#8⟩)] } ∧
    exec .ackAutoFrame s = .next { s with
      events := s.events ++ [.write (encodeFrame s.params.ackAuto ⟨0x00#8, 0x00#8, 0x00#8, 0x00#8⟩)] } ∧
    exec .ackManualFrame s = .next { s with
      events := s.events ++ [.write (encodeFrame s.params.ackManual ⟨0x00#8, 0x00#8, 0x00#8, 0x00#8⟩)] } ∧
    exec .ackShutdownFrame s = .next { s with
      events := s.events ++ [.write (encodeFrame s.params.ackShutdown ⟨0x00#8, 0x00#8, 0x00#8, 0x00#8⟩)] } ∧
    (∀ (c : Byte) (p : Payload),
      (encodeFrame c p).marker = 0x7E#8 ∧ (encodeFrame c p).command = c ∧ (encodeFrame c p).payload = p ∧
      (encodeFrame c p).reserved = 0x00#8 ∧ Valid (encodeFrame c p))

/-- Two equal request codes: every row that depends on the parameters is refused (00_scope R10), and the three codec rows,
which take no parameter, are not (log entry 9). -/
def Obligations.DispatchRefusesEqualRequestCodes : Prop :=
  ∀ (s : State) (i : Instr), ¬ s.params.Distinct →
    ((∀ bytes n, i ≠ .checksum bytes n) → (∀ c p, i ≠ .encode c p) → (∀ f, i ≠ .decode f) →
      exec i s = .refused .codesNotDistinct)

/-! ## The codec -/

/-- 40_codec R63 and R64: CHECKSUM returns 0xFF less the sum of the first n bytes, mod 256, is refused beyond the
sequence's end, and changes nothing but what it returns. -/
def Obligations.ChecksumRow : Prop :=
  ∀ (s : State) (bytes : List Byte) (n : Nat),
    (n ≤ bytes.length →
      exec (.checksum bytes n) s = .next { s with
        codecResult := some (.byte (BitVec.ofNat 8 (255 - byteSum (bytes.take n) % 256))) }) ∧
    (bytes.length < n → exec (.checksum bytes n) s = .refused .checksumOutOfDomain)

/-- 40_codec R64: the two readings of the closed form and the bitwise one give the same byte, and it is the checksum. -/
def Obligations.ChecksumClosedForm : Prop :=
  ∀ (bytes : List Byte) (n : Nat), n ≤ bytes.length →
    ((checksum bytes n).toNat : Int) = (255 - (byteSum (bytes.take n) : Int)) % 256 ∧
    (checksum bytes n).toNat = 255 - byteSum (bytes.take n) % 256 ∧
    checksum bytes n = ~~~ (BitVec.ofNat 8 (byteSum (bytes.take n)))

/-- 40_codec R65. -/
def Obligations.FrameSumLaw : Prop :=
  ∀ f : WireFrame, f.checksum = checksum (frameHead f) 7 ↔ byteSum (frameBytes f) % 256 = 255

/-- 40_codec R66: ENCODE is total and builds the eight bytes as the rule lists them. -/
def Obligations.EncodeRow : Prop :=
  ∀ (s : State) (c : Byte) (p : Payload), ∃ f : WireFrame,
    exec (.encode c p) s = .next { s with codecResult := some (.frame f) } ∧
    frameBytes f = [0x7E#8, c, p.p0, p.p1, p.p2, p.p3, 0x00#8,
      checksum [0x7E#8, c, p.p0, p.p1, p.p2, p.p3, 0x00#8] 7]

/-- 40_codec R69: DECODE answers the record where the marker and the checksum both fit and FrameInvalid otherwise, and
changes nothing but what it returns. -/
def Obligations.DecodeRow : Prop :=
  ∀ (s : State) (f : WireFrame),
    (f.marker = 0x7E#8 → f.checksum = checksum (frameHead f) 7 →
      exec (.decode f) s = .next { s with
        codecResult := some (.decoded (.ok ⟨f.command, f.payload, f.reserved, f.checksum⟩)) }) ∧
    (f.marker ≠ 0x7E#8 ∨ f.checksum ≠ checksum (frameHead f) 7 →
      exec (.decode f) s = .next { s with codecResult := some (.decoded .frameInvalid) })

/-- 40_codec R68. -/
def Obligations.CodecRoundTrip : Prop :=
  ∀ (c : Byte) (p : Payload),
    Valid (encodeFrame c p) ∧
    decodeFrame (encodeFrame c p) =
      .ok { command := c, payload := p, reserved := 0x00#8, checksum := (encodeFrame c p).checksum }

/-- 40_codec R71: flip exactly one bit of a valid frame, at any offset and any bit, and the result is never valid. -/
def Obligations.SingleBitErrorsAreDetected : Prop :=
  ∀ (f g : WireFrame) (i : Fin 8) (k : Fin 8), Valid f →
    frameBytes g = flipBit (frameBytes f) i k → ¬ Valid g

/-- 40_codec R72: flip one bit in each of two bytes of a valid frame; the result is valid exactly where neither byte is
the marker and the two signed value changes cancel mod 256, that is where the same bit below 7 flips up in one and down in
the other, or bit 7 flips in both. Two flips in one byte are always detected. -/
def Obligations.TwoBitErrorsMissed : Prop :=
  ∀ (f g : WireFrame) (i j : Fin 8) (k l : Fin 8), Valid f →
    frameBytes g = flipBit (flipBit (frameBytes f) i k) j l →
    (i = j → k ≠ l → ¬ Valid g) ∧
    (i ≠ j →
      let change := fun (n : Fin 8) =>
        (((frameBytes g).getD n 0#8).toNat : Int) - ((frameBytes f).getD n 0#8).toNat
      (Valid g ↔ i ≠ 0 ∧ j ≠ 0 ∧ (change i + change j) % 256 = 0) ∧
      ((change i + change j) % 256 = 0 ↔
        (k = l ∧ k ≠ 7 ∧
          ((frameBytes f).getD i 0#8).getLsbD k ≠ ((frameBytes f).getD j 0#8).getLsbD l) ∨
        (k = 7 ∧ l = 7)))

/-! ## Encoding -/

/-- Decoding an encoded row gives the row back, with every operand at every value, at every place the row's encoding can
stand (the ack rows where the five ack codes differ: where two coincide, two rows may be the same bytes). That FEED_DATA can stand
at a count of 0 is the model's reading of R73 and of the table's condition (log entry 7). -/
def Obligations.DecodeOfEncode : Prop :=
  ∀ (p : Params) (site : Site) (i : Instr) (bytes : List Byte),
    p.Distinct → wellFormed p i = true → siteFits site i = true → (site = .outbound → p.ackCodes.Nodup) →
    encode p i = some bytes → decode p site bytes = .ok i

/-- What the decoder answers is a well-formed row of that place, and its encoding is the very bytes that were read: no bit
is dropped and no two byte strings are one row. That FEED_DATA can stand at a count of 0 is the model's reading of R73 and of
the table's condition (log entry 7). -/
def Obligations.EncodeOfDecode : Prop :=
  ∀ (p : Params) (site : Site) (i : Instr) (bytes : List Byte), decode p site bytes = .ok i →
    wellFormed p i = true ∧ siteFits site i = true ∧ encode p i = some bytes

/-- The decoder rejects only what has no row: the wrong number of bytes, a full buffer, a refused parameter set, a frame on
WRITE that is no ack. Counts 1 to 7 are 30_encoding R56's; that ACCUMULATING with a count of 0 has a row is the model's
reading of 41_assembler R73 and of the table's condition "count <= 6" (log entry 7), and that a count of 8 or more has none is
its reading of 20_memory R34 and of the table's conditions (log entry 6). That an ack frame decodes to the first row it fits
where ack codes coincide is the model's choice (log entry 11). -/
def Obligations.DecoderAnswersEveryByteString : Prop :=
  ∀ (p : Params) (bytes : List Byte),
    (∀ (m : Mode) (k : Nat), (∃ i, decode p (.feed m k) bytes = .ok i) ↔
      bytes.length = 1 ∧ (m = .seeking ∨ k ≤ 7)) ∧
    ((∃ i, decode p .inbound bytes = .ok i) ↔ bytes.length = 8 ∧ p.Distinct) ∧
    (∀ i, encode p i = some bytes → siteFits .outbound i = true → ∃ j, decode p .outbound bytes = .ok j)

/-- 30_encoding R56. FEED_DATA at a count of 0, which R56 does not list and R73 and the table's condition "count <= 6" do,
is the model's reading (log entry 7). -/
def Obligations.FedByteClasses : Prop :=
  ∀ (p : Params) (b : Byte) (k : Nat),
    (b ≠ 0x7E#8 → decode p (.feed .seeking k) [b] = .ok (.feedNoise b)) ∧
    (b = 0x7E#8 → decode p (.feed .seeking k) [b] = .ok .feedStart) ∧
    (k ≤ 6 → decode p (.feed .accumulating k) [b] = .ok (.feedData b)) ∧
    (k = 7 → decode p (.feed .accumulating k) [b] = .ok (.feedEnd b))

/-- 30_encoding R53, 60_exceptions R107: validity first, then the five comparisons, at most one of which matches. -/
def Obligations.CommandSelection : Prop :=
  ∀ (p : Params) (f : WireFrame), p.Distinct →
    (¬ Valid f → decode p .inbound (frameBytes f) = .ok (.frameInvalid f)) ∧
    (Valid f →
      (f.command = p.cmdConfigTc → decode p .inbound (frameBytes f) = .ok (.configTc f.payload f.reserved)) ∧
      (f.command = p.cmdSetPower → decode p .inbound (frameBytes f) = .ok (.setPower f.payload f.reserved)) ∧
      (f.command = p.cmdAuto → decode p .inbound (frameBytes f) = .ok (.enableAuto f.payload f.reserved)) ∧
      (f.command = p.cmdManual → decode p .inbound (frameBytes f) = .ok (.enableManual f.payload f.reserved)) ∧
      (f.command = p.cmdShutdown → decode p .inbound (frameBytes f) = .ok (.shutdown f.payload f.reserved)) ∧
      (f.command ∉ p.requestCodes →
        decode p .inbound (frameBytes f) = .ok (.unrecognized f.command f.payload f.reserved)))

/-- Words written out from the layout of 30_encoding R46 and the byte classes of R56, with the checksums of
95_test_vectors.md, decode to the rows they stand for, at least one of each family (a sanity check of the decoder). -/
def Obligations.SampleWordsDecode : Prop :=
  decodeTableWord 8 0x7E = some .feedStart ∧
  decodeTableWord 8 0x7D = some (.feedNoise 0x7D#8) ∧
  decode Config.tieOff (.feed .accumulating 1) [0x7E#8] = .ok (.feedData 0x7E#8) ∧
  decode Config.tieOff (.feed .accumulating 7) [0x4D#8] = .ok (.feedEnd 0x4D#8) ∧
  decodeTableWord 64 0x7E0232000000004D = some (.setPower ⟨0x32#8, 0x00#8, 0x00#8, 0x00#8⟩ 0x00#8) ∧
  decodeTableWord 64 0x7E0105090A09005F = some (.configTc ⟨0x05#8, 0x09#8, 0x0A#8, 0x09#8⟩ 0x00#8) ∧
  decodeTableWord 64 0x7E10000000000071 = some (.unrecognized 0x10#8 ⟨0x00#8, 0x00#8, 0x00#8, 0x00#8⟩ 0x00#8) ∧
  decode Config.tieOff .outbound [0x7E#8, 0x82#8, 0x32#8, 0x00#8, 0x00#8, 0x00#8, 0x00#8, 0xCD#8] =
    .ok (.ackSetPowerFrame 0x32#8)

/-- The fixed names: the very next step of a state with a table word placed runs the row that decodeTableWord answers, on
the state that has taken the word's last byte (the registers already returned, for a frame). The numbering and the placing are the model's choice (log entries 2 and 10). -/
def Obligations.TableWordsRunAsDecoded : Prop :=
  ∀ (s : State) (w : Nat) (i : Instr), s.params = Config.tieOff →
    (decodeTableWord 8 w = some i →
      step (s.withFetchWord 8 w) = exec i { s with mode := .seeking, count := 0, buf := [] }) ∧
    (decodeTableWord 64 w = some i →
      step (s.withFetchWord 64 w) = exec i { s with mode := .seeking, count := 0, buf := [] })

/-! ## Whole-machine rules -/

/-- 41_assembler R73, 00_scope R14: one step is the whole FEED transaction as the spec writes it: the registers, the events
and the outcome are those of the pseudocode, and nothing else changes. A count of 0 in ACCUMULATING, which no rule but R73's pseudocode covers, is
log entry 7. -/
def Obligations.StepIsTheFeedTransaction : Prop :=
  ∀ (s : State) (b : Byte) (rest : List Byte), Ready s → s.count ≤ 7 → s.input = b :: rest →
    ∃ r es o, feedSpec s.params (registers s) b = (r, es, o) ∧
      step s = .next { s with
        mode := r.mode, count := r.count, buf := r.buf, input := rest,
        events := s.events ++ es, outcomes := s.outcomes ++ [o] }

/-- 60_exceptions R101, 42_dispatcher R86, 10_state R17, R30: every transaction ends with exactly one outcome, its events
are exactly those the outcome's row names, at most one is a Write and at most one an actuator event, and the parameters and
the codec's result stay. -/
def Obligations.OneOutcomePerTransaction : Prop :=
  ∀ (s t : State) (b : Byte) (rest : List Byte), s.input = b :: rest → step s = .next t →
    ∃ o es, t.outcomes = s.outcomes ++ [o] ∧ t.events = s.events ++ es ∧ outcomeExplains s.params o es = true ∧
      (writtenFrames es).length ≤ 1 ∧ es.countP isActuatorEvent ≤ 1 ∧
      (outcomeIsDispatch o = true ↔ (writtenFrames es).length = 1) ∧
      t.input = rest ∧ t.params = s.params ∧ t.codecResult = s.codecResult

/-- 20_memory R42, 42_dispatcher R86, R98: from any state whose event trace is accounted for by its outcome trace, every
step keeps it so: the n-th acknowledgement written is the ack of the n-th dispatched command, its actuator event just
before it, and nothing else is ever written. Reachable states have it. -/
def Obligations.EventTraceIsAccountedFor : Prop :=
  (∀ s t : State, traceAccounted s.params s.outcomes s.events = true → step s = .next t →
    traceAccounted t.params t.outcomes t.events = true) ∧
  (∀ (p : Params) (s : State), Reachable p s →
    s.params = p ∧ traceAccounted p s.outcomes s.events = true ∧
    (writtenFrames s.events).length = s.outcomes.countP outcomeIsDispatch ∧
    ∀ f ∈ writtenFrames s.events, Valid f ∧ f.reserved = 0x00#8)

/-- The frame of the FEED rows: where one answers a next state, the parameters, the waiting bytes and the codec's result
stay, and the traces only grow; the three that complete no frame emit no event. -/
def Obligations.FrameOfTheFeedRows : Prop :=
  ∀ (s t : State) (b : Byte),
    (exec (.feedNoise b) s = .next t → registers t = registers s ∧ t.events = s.events) ∧
    (exec .feedStart s = .next t → t.events = s.events) ∧
    (exec (.feedData b) s = .next t → t.events = s.events ∧ t.mode = s.mode) ∧
    (exec (.feedEnd b) s = .next t → registers t = resetRegisters ∧ s.events <+: t.events) ∧
    ((exec (.feedNoise b) s = .next t ∨ exec .feedStart s = .next t ∨ exec (.feedData b) s = .next t ∨
        exec (.feedEnd b) s = .next t) →
      t.params = s.params ∧ t.input = s.input ∧ t.codecResult = s.codecResult ∧
      ∃ o, t.outcomes = s.outcomes ++ [o])

/-- 42_dispatcher R85, 10_state R27, R30: the frame of the inbound and outbound frame rows: no register of the block, no
parameter, no waiting byte and no codec result is written, and the traces only grow. The last clause, that an ack row adds
one event and no outcome, rests on the model's choice that an ack row runs on its own (log entry 11). -/
def Obligations.FrameOfTheFrameRows : Prop :=
  ∀ (s t : State) (i : Instr), (siteFits .inbound i = true ∨ siteFits .outbound i = true) → exec i s = .next t →
    registers t = registers s ∧ t.params = s.params ∧ t.input = s.input ∧ t.codecResult = s.codecResult ∧
    s.events <+: t.events ∧ s.outcomes <+: t.outcomes ∧
    (siteFits .outbound i = true → t.outcomes = s.outcomes ∧ t.events.length = s.events.length + 1)

/-- 10_state R26, 40_codec R69 ("No state is read or written"): the frame of the codec rows, and that what they return does
not depend on the state. -/
def Obligations.FrameOfTheCodecRows : Prop :=
  ∀ (s s' : State) (i : Instr), (∀ site, siteFits site i = false) →
    (∀ t, exec i s = .next t → { t with codecResult := s.codecResult } = s) ∧
    (∀ t, exec i s = .next t → ∃ t', exec i s' = .next t' ∧ t'.codecResult = t.codecResult)

/-- 10_state R29: the outcome and the events are outputs: no transaction reads them. Two blocks that differ only in what
they have already put out go on alike. -/
def Obligations.OutputsAreNotReadBack : Prop :=
  ∀ (s t : State) (es : List Event) (os : List FeedOutcome) (r : Option CodecResult), step s = .next t →
    ∃ newEvents newOutcomes,
      t.events = s.events ++ newEvents ∧ t.outcomes = s.outcomes ++ newOutcomes ∧
      step { s with events := es, outcomes := os, codecResult := r } =
        .next { t with events := es ++ newEvents, outcomes := os ++ newOutcomes, codecResult := r }

/-- 41_assembler R78, 70_reset R119: while ACCUMULATING no byte value changes what the assembler does with it.
That a byte is appended at a count of 0, which R56 and R76 do not list, is the model's reading of R73 and of the table's
condition (log entry 7). -/
def Obligations.NoMidFrameResynchronization : Prop :=
  ∀ (s : State) (b : Byte) (rest : List Byte), Ready s → s.mode = .accumulating → s.count ≤ 7 → s.input = b :: rest →
    ∃ t, step s = .next t ∧ t.input = rest ∧
      (s.count ≤ 6 → registers t = ⟨.accumulating, s.count + 1, s.buf ++ [b]⟩) ∧
      (s.count = 7 → registers t = ⟨.seeking, 0, []⟩)

/-- 20_memory R40: a noise byte in SEEKING changes no register and emits nothing; every other FEED changes count. -/
def Obligations.OnlyNoiseIsIdempotent : Prop :=
  ∀ (s t : State) (b : Byte) (rest : List Byte), Boundary s → s.input = b :: rest → step s = .next t →
    (s.mode = .seeking ∧ b ≠ 0x7E#8 → registers t = registers s ∧ t.events = s.events) ∧
    (¬ (s.mode = .seeking ∧ b ≠ 0x7E#8) → t.count ≠ s.count)

/-- 30_encoding R49, R50, 42_dispatcher R96: two valid frames with the same command and the same operand bytes, fed to a
block in SEEKING, leave it in the same state, and neither is dropped as invalid, whatever their reserved byte and their
unused payload bytes. -/
def Obligations.ReservedAndUnusedBytesAreIgnored : Prop :=
  ∀ (s : State) (f g : WireFrame) (rest : List Byte), Ready s → s.mode = .seeking → Valid f → Valid g →
    f.command = g.command →
    (f.command = s.params.cmdConfigTc → payloadByte f.payload s.params.tcIndex = payloadByte g.payload s.params.tcIndex) →
    (f.command = s.params.cmdSetPower → f.payload.p0 = g.payload.p0) →
    ∃ t, runSteps 8 { s with input := frameBytes f ++ rest } = .next t ∧
      runSteps 8 { s with input := frameBytes g ++ rest } = .next t ∧
      t.outcomes.getLast? ≠ some .frameInvalid

/-- 42_dispatcher R97, R99: a frame the block could have written, fed back, is valid and goes by its command byte alone:
the command whose request code equals it, or unrecognized. -/
def Obligations.AckFedBackGoesByItsCode : Prop :=
  ∀ (s : State) (c : Byte) (payload : Payload) (rest : List Byte), Ready s → s.mode = .seeking →
    s.input = frameBytes (encodeFrame c payload) ++ rest →
    ∃ t, runSteps 8 s = .next t ∧ t.input = rest ∧ registers t = resetRegisters ∧
      t.events = s.events ++ (dispatchSpec s.params ⟨c, payload, 0x00#8, (encodeFrame c payload).checksum⟩).1 ∧
      (c ∉ s.params.requestCodes → t.events = s.events ∧ t.outcomes.getLast? = some .unrecognized) ∧
      (c ∈ s.params.requestCodes → ∃ f, t.events.getLast? = some (.write f))

/-! ## Stream-level laws -/

/-- 41_assembler R81: any number of non-marker bytes, then a valid frame: exactly that frame is completed, and the block
ends where it began. -/
def Obligations.Resynchronization : Prop :=
  ∀ (s : State) (noise : List Byte) (f : WireFrame) (rest : List Byte), Ready s → s.mode = .seeking →
    (∀ b ∈ noise, b ≠ 0x7E#8) → Valid f → s.input = noise ++ frameBytes f ++ rest →
    runSteps (noise.length + 8) s = .next { s with
      input := rest,
      events := s.events ++ (dispatchSpec s.params ⟨f.command, f.payload, f.reserved, f.checksum⟩).1,
      outcomes := s.outcomes ++ List.replicate noise.length .noiseDiscarded ++ [.frameStarted] ++
        List.replicate 6 .byteAccumulated ++
        [(dispatchSpec s.params ⟨f.command, f.payload, f.reserved, f.checksum⟩).2] }

/-- 41_assembler R82: after the marker and j further bytes, 0 ≤ j ≤ 6, the block waits, for any number of steps, with no
event emitted; the remaining 7 - j bytes complete the frame exactly as if all had come together. That a moment with no byte
waiting is a step at all is the model's choice (log entry 5). -/
def Obligations.PartialFrameStall : Prop :=
  ∀ (s : State) (front back : List Byte), Ready s → s.mode = .seeking → s.input = [] →
    front.length ≤ 6 → front.length + back.length = 7 →
    ∃ parked, registers parked = ⟨.accumulating, front.length + 1, 0x7E#8 :: front⟩ ∧
      parked.events = s.events ∧
      (∀ wait : Nat, runSteps (1 + front.length + wait) (deliver (0x7E#8 :: front) s) = .next parked) ∧
      feedBytes back parked = feedBytes (0x7E#8 :: front ++ back) s

/-- 41_assembler R83, R79: a marker fed in SEEKING takes the next seven bytes, whatever they are, as its candidate; what
it emits is what those eight bytes emit, and the bytes after it are read from SEEKING. -/
def Obligations.FalseMarkerTakesTheNextSevenBytes : Prop :=
  ∀ (s : State) (f : WireFrame) (rest : List Byte), Ready s → s.mode = .seeking → f.marker = 0x7E#8 →
    s.input = frameBytes f ++ rest →
    runSteps 8 s = .next { s with
      input := rest,
      events := s.events ++ (candidateSpec s.params f).1,
      outcomes := s.outcomes ++ [.frameStarted] ++ List.replicate 6 .byteAccumulated ++ [(candidateSpec s.params f).2] } ∧
    (f.checksum ≠ checksum (frameHead f) 7 → candidateSpec s.params f = ([], .frameInvalid))

/-- 41_assembler R84: seven bytes other than the marker bring any boundary state back to SEEKING; from ACCUMULATING with k
bytes the first 8 - k complete the candidate and the remaining k - 1 are noise, from SEEKING all seven are noise. -/
def Obligations.SevenByteFlush : Prop :=
  ∀ (s : State) (flush rest : List Byte), s.params.Distinct → Boundary s → flush.length = 7 →
    (∀ b ∈ flush, b ≠ 0x7E#8) → s.input = flush ++ rest →
    ∃ t, runSteps 7 s = .next t ∧ registers t = ⟨.seeking, 0, []⟩ ∧ t.input = rest ∧
      (s.mode = .seeking → t.events = s.events ∧ t.outcomes = s.outcomes ++ List.replicate 7 .noiseDiscarded) ∧
      (s.mode = .accumulating → ∃ cand, frameBytes cand = s.buf ++ flush.take (8 - s.count) ∧
        t.events = s.events ++ (candidateSpec s.params cand).1 ∧
        t.outcomes = s.outcomes ++ List.replicate (7 - s.count) .byteAccumulated ++
          [(candidateSpec s.params cand).2] ++ List.replicate (s.count - 1) .noiseDiscarded)

/-- 95_test_vectors W1 in parameter form, the source's one concrete scenario (40_codec R64, R66, 42_dispatcher R88): under
any codes, the eight bytes of Set-Power 0x32 make the block set the power to 0x32 and acknowledge with payload byte 0x32,
both checksums being 0x4F less the code. -/
def Obligations.ConcreteScenarioOfTheSource : Prop :=
  ∀ (s : State) (rest : List Byte), Ready s → s.mode = .seeking →
    s.input = [0x7E#8, s.params.cmdSetPower, 0x32#8, 0x00#8, 0x00#8, 0x00#8, 0x00#8, 0x4F#8 - s.params.cmdSetPower] ++ rest →
    ∃ t f, runSteps 8 s = .next t ∧ registers t = ⟨.seeking, 0, []⟩ ∧ t.input = rest ∧
      t.events = s.events ++ [.setPower 0x32#8, .write f] ∧
      frameBytes f = [0x7E#8, s.params.ackSetPower, 0x32#8, 0x00#8, 0x00#8, 0x00#8, 0x00#8, 0x4F#8 - s.params.ackSetPower] ∧
      t.outcomes.getLast? = some .dispatchedSetPower

/-- 20_memory R41, R42: k steps feed exactly the k oldest bytes, in order, one outcome each, and whatever has been put out
stays put out. -/
def Obligations.BytesAreFedInOrder : Prop :=
  ∀ (k : Nat) (s t : State), k ≤ s.input.length → runSteps k s = .next t →
    t.input = s.input.drop k ∧ t.outcomes.length = s.outcomes.length + k ∧
    s.events <+: t.events ∧ s.outcomes <+: t.outcomes ∧ t.params = s.params

/-- 10_state R25: every boundary state of R24 is reachable: for each k in 1..7 every choice of the bytes after the marker
occurs. -/
def Obligations.EveryBoundaryStateIsReachable : Prop :=
  ∀ (p : Params) (after : List Byte), p.Distinct → after.length ≤ 6 →
    ∃ s, Reachable p s ∧ registers s = ⟨.accumulating, after.length + 1, 0x7E#8 :: after⟩ ∧ s.input = []
end

