-- ==== Sys2Proof/Laws/State.lean ====
section
/-! SUPPORT. One lemma per field per shared update, all true by rfl, so that no proof unfolds a record update. -/

namespace Sys2Proof.Machine

@[simp] theorem emit_params (e : Event) (s : State) : (emit e s).params = s.params := rfl
@[simp] theorem emit_mode (e : Event) (s : State) : (emit e s).mode = s.mode := rfl
@[simp] theorem emit_count (e : Event) (s : State) : (emit e s).count = s.count := rfl
@[simp] theorem emit_buf (e : Event) (s : State) : (emit e s).buf = s.buf := rfl
@[simp] theorem emit_input (e : Event) (s : State) : (emit e s).input = s.input := rfl
@[simp] theorem emit_events (e : Event) (s : State) : (emit e s).events = s.events ++ [e] := rfl
@[simp] theorem emit_outcomes (e : Event) (s : State) : (emit e s).outcomes = s.outcomes := rfl
@[simp] theorem emit_codecResult (e : Event) (s : State) : (emit e s).codecResult = s.codecResult := rfl

@[simp] theorem finish_params (o : FeedOutcome) (s : State) : (finish o s).params = s.params := rfl
@[simp] theorem finish_mode (o : FeedOutcome) (s : State) : (finish o s).mode = s.mode := rfl
@[simp] theorem finish_count (o : FeedOutcome) (s : State) : (finish o s).count = s.count := rfl
@[simp] theorem finish_buf (o : FeedOutcome) (s : State) : (finish o s).buf = s.buf := rfl
@[simp] theorem finish_input (o : FeedOutcome) (s : State) : (finish o s).input = s.input := rfl
@[simp] theorem finish_events (o : FeedOutcome) (s : State) : (finish o s).events = s.events := rfl
@[simp] theorem finish_outcomes (o : FeedOutcome) (s : State) : (finish o s).outcomes = s.outcomes ++ [o] := rfl
@[simp] theorem finish_codecResult (o : FeedOutcome) (s : State) : (finish o s).codecResult = s.codecResult := rfl

@[simp] theorem setMode_params (m : Mode) (s : State) : (setMode m s).params = s.params := rfl
@[simp] theorem setMode_mode (m : Mode) (s : State) : (setMode m s).mode = m := rfl
@[simp] theorem setMode_count (m : Mode) (s : State) : (setMode m s).count = s.count := rfl
@[simp] theorem setMode_buf (m : Mode) (s : State) : (setMode m s).buf = s.buf := rfl
@[simp] theorem setMode_input (m : Mode) (s : State) : (setMode m s).input = s.input := rfl
@[simp] theorem setMode_events (m : Mode) (s : State) : (setMode m s).events = s.events := rfl
@[simp] theorem setMode_outcomes (m : Mode) (s : State) : (setMode m s).outcomes = s.outcomes := rfl
@[simp] theorem setMode_codecResult (m : Mode) (s : State) : (setMode m s).codecResult = s.codecResult := rfl

@[simp] theorem bufClear_params (s : State) : (bufClear s).params = s.params := rfl
@[simp] theorem bufClear_mode (s : State) : (bufClear s).mode = s.mode := rfl
@[simp] theorem bufClear_count (s : State) : (bufClear s).count = 0 := rfl
@[simp] theorem bufClear_buf (s : State) : (bufClear s).buf = [] := rfl
@[simp] theorem bufClear_input (s : State) : (bufClear s).input = s.input := rfl
@[simp] theorem bufClear_events (s : State) : (bufClear s).events = s.events := rfl
@[simp] theorem bufClear_outcomes (s : State) : (bufClear s).outcomes = s.outcomes := rfl
@[simp] theorem bufClear_codecResult (s : State) : (bufClear s).codecResult = s.codecResult := rfl

@[simp] theorem deliver_params (bs : List Byte) (s : State) : (deliver bs s).params = s.params := rfl
@[simp] theorem deliver_mode (bs : List Byte) (s : State) : (deliver bs s).mode = s.mode := rfl
@[simp] theorem deliver_count (bs : List Byte) (s : State) : (deliver bs s).count = s.count := rfl
@[simp] theorem deliver_buf (bs : List Byte) (s : State) : (deliver bs s).buf = s.buf := rfl
@[simp] theorem deliver_input (bs : List Byte) (s : State) : (deliver bs s).input = s.input ++ bs := rfl
@[simp] theorem deliver_events (bs : List Byte) (s : State) : (deliver bs s).events = s.events := rfl
@[simp] theorem deliver_outcomes (bs : List Byte) (s : State) : (deliver bs s).outcomes = s.outcomes := rfl
@[simp] theorem deliver_codecResult (bs : List Byte) (s : State) : (deliver bs s).codecResult = s.codecResult := rfl

@[simp] theorem codecReturn_codecResult (r : CodecResult) (s : State) : (codecReturn r s).codecResult = some r := rfl
@[simp] theorem codecReturn_params (r : CodecResult) (s : State) : (codecReturn r s).params = s.params := rfl
@[simp] theorem codecReturn_mode (r : CodecResult) (s : State) : (codecReturn r s).mode = s.mode := rfl
@[simp] theorem codecReturn_count (r : CodecResult) (s : State) : (codecReturn r s).count = s.count := rfl
@[simp] theorem codecReturn_buf (r : CodecResult) (s : State) : (codecReturn r s).buf = s.buf := rfl
@[simp] theorem codecReturn_input (r : CodecResult) (s : State) : (codecReturn r s).input = s.input := rfl
@[simp] theorem codecReturn_events (r : CodecResult) (s : State) : (codecReturn r s).events = s.events := rfl
@[simp] theorem codecReturn_outcomes (r : CodecResult) (s : State) : (codecReturn r s).outcomes = s.outcomes := rfl

end Sys2Proof.Machine
end

