-- ==== Sys2Proof/Laws/Ops.lean ====
section
/-! SUPPORT. What each guard and each buffer primitive can do, said once. -/

namespace Sys2Proof.Machine

/-- A configured block passes the guard. -/
@[simp] theorem ifConfigured_of_distinct {s : State} (h : s.params.Distinct) (k : Answer) :
    ifConfigured s k = k := if_pos h

theorem ifConfigured_next {s t : State} {k : Answer} (h : ifConfigured s k = .next t) :
    s.params.Distinct ∧ k = .next t := by
  unfold ifConfigured at h
  split at h
  · exact ⟨‹_›, h⟩
  · cases h

@[simp] theorem ifInvariant_of_inv {s : State} (h : RegInv s) (k : Answer) : ifInvariant s k = k := if_pos h

theorem ifInvariant_next {s t : State} {k : Answer} (h : ifInvariant s k = .next t) : RegInv s ∧ k = .next t := by
  unfold ifInvariant at h
  split at h
  · exact ⟨‹_›, h⟩
  · cases h

/-- Both guards pass on a ready state. -/
@[simp] theorem feedGuard_of_ready {s : State} (h : Ready s) (k : Answer) : feedGuard s k = k := by
  rw [feedGuard, ifConfigured_of_distinct h.1, ifInvariant_of_inv h.2]

/-- A guarded answer that is a next state comes from a ready state and is the guarded one. -/
theorem feedGuard_next {s t : State} {k : Answer} (h : feedGuard s k = .next t) : Ready s ∧ k = .next t := by
  obtain ⟨hd, h⟩ := ifConfigured_next h
  obtain ⟨hi, h⟩ := ifInvariant_next h
  exact ⟨⟨hd, hi⟩, h⟩

@[simp] theorem ifSelected_of_true {c : Prop} [Decidable c] (h : c) (k : Answer) : ifSelected c k = k := if_pos h

@[simp] theorem ifSelected_of_false {c : Prop} [Decidable c] (h : ¬ c) (k : Answer) :
    ifSelected c k = .refused .rowNotSelected := if_neg h

theorem ifSelected_next {c : Prop} [Decidable c] {t : State} {k : Answer} (h : ifSelected c k = .next t) :
    c ∧ k = .next t := by
  unfold ifSelected at h
  split at h
  · exact ⟨‹_›, h⟩
  · cases h

/-- Append below the frame size. -/
theorem withAppended_of_lt {s : State} (h : s.count < Config.frameSize) (b : Byte) (k : State → Answer) :
    withAppended b s k = k { s with buf := s.buf ++ [b], count := s.count + 1 } := by
  simp [withAppended, bufAppend, h]

theorem withAppended_next {s t : State} {b : Byte} {k : State → Answer} (h : withAppended b s k = .next t) :
    s.count < Config.frameSize ∧ k { s with buf := s.buf ++ [b], count := s.count + 1 } = .next t := by
  by_cases hc : s.count < Config.frameSize
  · exact ⟨hc, by rwa [withAppended_of_lt hc] at h⟩
  · simp [withAppended, bufAppend, hc] at h

/-- Append keeps I-LEN (10_state R21). -/
theorem bufAppend_keeps_iLen {s t : State} {b : Byte} (hl : ILen s) (h : bufAppend b s = some t) : ILen t := by
  unfold bufAppend at h
  split at h
  · cases h
    simp only [ILen, List.length_append, List.length_singleton] at hl ⊢
    omega
  · cases h

/-- Clear re-establishes all three invariants, whatever stood before. -/
theorem bufClear_inv (s : State) : RegInv (bufClear s) := by
  simp [RegInv, ILen, IBound, ISeek]

/-- The eight bytes of a full buffer are a frame. -/
theorem frameOfBytes_of_length {bs : List Byte} (h : bs.length = 8) :
    ∃ f, frameOfBytes bs = some f ∧ frameBytes f = bs := by
  match bs, h with
  | [a, b, c, d, e, f, g, k], _ => exact ⟨⟨a, b, ⟨c, d, e, f⟩, g, k⟩, rfl, rfl⟩

@[simp] theorem frameOfBytes_frameBytes (f : WireFrame) : frameOfBytes (frameBytes f) = some f := rfl

theorem frameOfBytes_some {bs : List Byte} {f : WireFrame} (h : frameOfBytes bs = some f) : frameBytes f = bs := by
  unfold frameOfBytes at h
  split at h
  · cases h; rfl
  · cases h

theorem frameBytes_injective {f g : WireFrame} (h : frameBytes f = frameBytes g) : f = g := by
  have h' := congrArg frameOfBytes h
  simpa using h'

@[simp] theorem frameBytes_length (f : WireFrame) : (frameBytes f).length = 8 := rfl

/-- Take on a full buffer. -/
theorem withTaken_of_full {s : State} {cand : WireFrame} (hc : s.count = Config.frameSize)
    (hb : frameOfBytes s.buf = some cand) (k : WireFrame → State → Answer) :
    withTaken s k = k cand (bufClear s) := by
  rw [withTaken, bufTake, if_pos hc, hb]

end Sys2Proof.Machine
end

