-- ==== Sys2Proof/Laws/Codec.lean ====
section
/-! SUPPORT. The codec's small lemmas: the checksum by one byte more, and when decode answers what. -/

namespace Sys2Proof.Machine

@[simp] theorem checksum_zero (bs : List Byte) : checksum bs 0 = Config.ckSeed := rfl

/-- One byte more is one 8-bit subtraction more (40_codec R63). -/
theorem checksum_succ (bs : List Byte) (n : Nat) (h : n < bs.length) :
    checksum bs (n + 1) = checksum bs n - bs[n] := by
  rw [checksum, List.take_add_one, List.getElem?_eq_getElem h, List.foldl_append]
  rfl

@[simp] theorem byteSum_nil : byteSum [] = 0 := rfl

@[simp] theorem byteSum_cons (b : Byte) (bs : List Byte) : byteSum (b :: bs) = b.toNat + byteSum bs := by
  simp [byteSum]

@[simp] theorem byteSum_append (as bs : List Byte) : byteSum (as ++ bs) = byteSum as + byteSum bs := by
  simp [byteSum]

/-- decode answers the record exactly on a valid frame. -/
theorem decodeFrame_of_valid {f : WireFrame} (h : Valid f) :
    decodeFrame f = .ok ⟨f.command, f.payload, f.reserved, f.checksum⟩ := by
  obtain ⟨h1, h2⟩ := h
  unfold decodeFrame
  rw [if_neg (not_not.mpr h1), if_neg (not_not.mpr h2)]

theorem decodeFrame_of_not_valid {f : WireFrame} (h : ¬ Valid f) : decodeFrame f = .frameInvalid := by
  unfold decodeFrame
  split
  · rfl
  · rename_i h1
    rw [if_pos]
    intro h2
    exact h ⟨not_not.mp h1, h2⟩

end Sys2Proof.Machine
end

