-- ==== Sys2Proof/Laws/Dispatcher.lean ====
section
/-! SUPPORT. One equation each for DISPATCH, for the end of a candidate and for FEED_END: what the operation answers, in
the terms of the pure functions of Machine/Transaction.lean. -/

namespace Sys2Proof.Machine

/-- The state after a transaction's events and outcome have been put out. -/
theorem dispatch_eq {s : State} (h : s.params.Distinct) (fr : Frame) :
    dispatch fr s = .next { s with
      events := s.events ++ (dispatchSpec s.params fr).1
      outcomes := s.outcomes ++ [(dispatchSpec s.params fr).2] } := by
  unfold dispatch dispatchSpec
  split_ifs with h1 h2 h3 h4 h5
  · simp only [execConfigTc, ifConfigured_of_distinct h, finish, writeAck, emit, List.append_assoc, List.cons_append,
      List.nil_append]
  · simp only [execSetPower, ifConfigured_of_distinct h, finish, writeAck, emit, List.append_assoc, List.cons_append,
      List.nil_append]
  · simp only [execEnableAuto, ifConfigured_of_distinct h, finish, writeAck, emit]
  · simp only [execEnableManual, ifConfigured_of_distinct h, finish, writeAck, emit]
  · simp only [execShutdown, ifConfigured_of_distinct h, finish, writeAck, emit]
  · have hc : fr.command ∉ s.params.requestCodes := by simp [Params.requestCodes, h1, h2, h3, h4, h5]
    simp only [execUnrecognized, ifConfigured_of_distinct h, ifSelected_of_true hc, finish, List.append_nil]

/-- What a completed candidate answers: decode, then drop or dispatch. -/
theorem completeCandidate_eq {s : State} (h : s.params.Distinct) (cand : WireFrame) :
    completeCandidate cand s = .next { s with
      events := s.events ++ (candidateSpec s.params cand).1
      outcomes := s.outcomes ++ [(candidateSpec s.params cand).2] } := by
  by_cases hv : Valid cand
  · simp only [completeCandidate, candidateSpec, decodeFrame_of_valid hv, dispatch_eq h]
  · simp only [completeCandidate, candidateSpec, decodeFrame_of_not_valid hv, execFrameInvalid,
      ifConfigured_of_distinct h, ifSelected_of_true hv, finish, List.append_nil]

/-- FEED_END forms the candidate, returns the registers, and completes it. -/
theorem execFeedEnd_eq {s : State} (hr : Ready s) (hm : s.mode = .accumulating) (hc : s.count = 7) (b : Byte) :
    ∃ cand, frameOfBytes (s.buf ++ [b]) = some cand ∧ frameBytes cand = s.buf ++ [b] ∧
      execFeedEnd b s = completeCandidate cand { s with mode := .seeking, count := 0, buf := [] } := by
  have hlen : (s.buf ++ [b]).length = 8 := by
    have := hr.2.1
    simp only [ILen] at this
    simp only [List.length_append, List.length_singleton]
    omega
  obtain ⟨cand, hf, hb⟩ := frameOfBytes_of_length hlen
  refine ⟨cand, hf, hb, ?_⟩
  have hend : s.count + 1 = Config.frameSize := by rw [hc]; rfl
  rw [execFeedEnd, feedGuard_of_ready hr, ifSelected_of_true ⟨hm, hend⟩,
    withAppended_of_lt (by rw [← hend]; exact Nat.lt_succ_self _), withTaken_of_full hend hf]
  rfl

end Sys2Proof.Machine
end

