-- ==== Sys2Proof/Laws/PerInstr.lean ====
section
/-! SUPPORT. Per-instruction families: EncodedLength, one lemma per constructor (30_encoding R58, 20_memory R35). -/

namespace Sys2Proof.Laws.EncodedLength

/-- A row's encoding is one byte at the FEED port and eight bytes at a frame's place, under any parameters. -/
def Statement (i : Instr) : Prop :=
  ∀ (p : Params) (site : Site) (bytes : List Byte), encode p i = some bytes → siteFits site i = true →
    bytes.length = match site with
      | .feed _ _ => 1
      | .inbound | .outbound => 8

theorem feedNoise (b : Byte) : Statement (.feedNoise b) := by
  intro p site bytes he hs
  cases he
  cases site <;> first | rfl | cases hs

theorem feedStart : Statement .feedStart := by
  intro p site bytes he hs
  cases he
  cases site <;> first | rfl | cases hs

theorem feedData (b : Byte) : Statement (.feedData b) := by
  intro p site bytes he hs
  cases he
  cases site <;> first | rfl | cases hs

theorem feedEnd (b : Byte) : Statement (.feedEnd b) := by
  intro p site bytes he hs
  cases he
  cases site <;> first | rfl | cases hs

theorem configTc (payload : Payload) (reserved : Byte) : Statement (.configTc payload reserved) := by
  intro p site bytes he hs
  cases he
  cases site <;> first | rfl | cases hs

theorem setPower (payload : Payload) (reserved : Byte) : Statement (.setPower payload reserved) := by
  intro p site bytes he hs
  cases he
  cases site <;> first | rfl | cases hs

theorem enableAuto (payload : Payload) (reserved : Byte) : Statement (.enableAuto payload reserved) := by
  intro p site bytes he hs
  cases he
  cases site <;> first | rfl | cases hs

theorem enableManual (payload : Payload) (reserved : Byte) : Statement (.enableManual payload reserved) := by
  intro p site bytes he hs
  cases he
  cases site <;> first | rfl | cases hs

theorem shutdown (payload : Payload) (reserved : Byte) : Statement (.shutdown payload reserved) := by
  intro p site bytes he hs
  cases he
  cases site <;> first | rfl | cases hs

theorem unrecognized (command : Byte) (payload : Payload) (reserved : Byte) :
    Statement (.unrecognized command payload reserved) := by
  intro p site bytes he hs
  cases he
  cases site <;> first | rfl | cases hs

theorem frameInvalid (f : WireFrame) : Statement (.frameInvalid f) := by
  intro p site bytes he hs
  cases he
  cases site <;> first | rfl | cases hs

theorem ackConfigTcFrame (v : Byte) : Statement (.ackConfigTcFrame v) := by
  intro p site bytes he hs
  cases he
  cases site <;> first | rfl | cases hs

theorem ackSetPowerFrame (v : Byte) : Statement (.ackSetPowerFrame v) := by
  intro p site bytes he hs
  cases he
  cases site <;> first | rfl | cases hs

theorem ackAutoFrame : Statement .ackAutoFrame := by
  intro p site bytes he hs
  cases he
  cases site <;> first | rfl | cases hs

theorem ackManualFrame : Statement .ackManualFrame := by
  intro p site bytes he hs
  cases he
  cases site <;> first | rfl | cases hs

theorem ackShutdownFrame : Statement .ackShutdownFrame := by
  intro p site bytes he hs
  cases he
  cases site <;> first | rfl | cases hs

theorem checksum (bytes : List Byte) (n : Nat) : Statement (.checksum bytes n) := by
  intro p site bs he hs
  cases he

theorem encode (command : Byte) (payload : Payload) : Statement (.encode command payload) := by
  intro p site bs he hs
  cases he

theorem decode (f : WireFrame) : Statement (.decode f) := by
  intro p site bs he hs
  cases he

end Sys2Proof.Laws.EncodedLength
end

