-- ==== Sys2Proof/Laws/Step.lean ====
section
/-! SUPPORT. What one step can do, said once: an inversion of step by row, and how runs compose. -/

namespace Sys2Proof.Machine

/-- A step that answers a next state starts from a ready state and is either an idle step or one decoded row. -/
theorem step_next_cases {s t : State} (h : step s = .next t) :
    Ready s ∧ ((s.input = [] ∧ t = s) ∨
      ∃ b rest i, s.input = b :: rest ∧ decode s.params (.feed s.mode s.count) [b] = .ok i ∧
        exec i { s with input := rest } = .next t) := by
  obtain ⟨hr, h⟩ := feedGuard_next h
  refine ⟨hr, ?_⟩
  cases hin : s.input with
  | nil =>
    simp only [fetch, hin, Host.Outcome.next.injEq] at h
    exact .inl ⟨rfl, h.symm⟩
  | cons b rest =>
    refine .inr ?_
    simp only [fetch, hin] at h
    cases hd : decode s.params (.feed s.mode s.count) [b] with
    | ok i =>
      rw [hd] at h
      exact ⟨b, rest, i, rfl, hd, h⟩
    | error e =>
      rw [hd] at h
      cases e <;> cases h

/-- From a ready state, a step on a waiting byte that is row i is exec of i; stated as the step's own equation, which
Laws about single rows rewrite with. -/
theorem step_eq_of_fetch {s s1 : State} {i : Instr} (hr : Ready s) (hf : fetch s = some (.ok i, s1)) :
    step s = exec i s1 := by
  rw [step, feedGuard_of_ready hr, hf]

/-- What fetch takes. -/
theorem fetch_cons {s : State} {b : Byte} {rest : List Byte} (h : s.input = b :: rest) :
    fetch s = some (decode s.params (.feed s.mode s.count) [b], { s with input := rest }) := by
  simp only [fetch, h]

theorem fetch_nil {s : State} (h : s.input = []) : fetch s = none := by
  simp only [fetch, h]

/-- No steps. -/
@[simp] theorem runSteps_zero (s : State) : runSteps 0 s = .next s := rfl

/-- One step, then the rest. -/
theorem runSteps_succ_of_next {s t : State} (h : step s = .next t) (k : Nat) :
    runSteps (k + 1) s = runSteps k t := by
  simp only [runSteps, h]

/-- A run that answers a next state is a first step and a run from there. -/
theorem runSteps_succ_next {s u : State} {k : Nat} (h : runSteps (k + 1) s = .next u) :
    ∃ t, step s = .next t ∧ runSteps k t = .next u := by
  simp only [runSteps] at h
  split at h
  · exact ⟨_, ‹_›, h⟩
  · cases h
  · cases h

/-- Runs compose. -/
theorem runSteps_add {s t : State} {j : Nat} (h : runSteps j s = .next t) (k : Nat) :
    runSteps (j + k) s = runSteps k t := by
  induction j generalizing s with
  | zero =>
    cases h
    rw [Nat.zero_add]
  | succ j ih =>
    obtain ⟨u, hu, hrun⟩ := runSteps_succ_next h
    rw [Nat.succ_add, runSteps_succ_of_next hu, ih hrun]

/-- The host's own run of the core is this run. -/
theorem core_run_eq_runSteps (k : Nat) (s : State) : Host.Core.run Sys2Proof.core k s = runSteps k s := by
  induction k generalizing s with
  | zero => rfl
  | succ k ih =>
    have hcore : Host.Core.step Sys2Proof.core s = step s := rfl
    simp only [Host.Core.run, runSteps]
    cases h : step s with
    | next t => rw [hcore, h]; exact ih t
    | fault r => rw [hcore, h]; rfl
    | refused r => rw [hcore, h]; rfl

end Sys2Proof.Machine
end

