-- ==== Sys2Proof/Machine/Stimulus.lean ====
section
/-! DEFINITION. The spec's stimulus and expected-output notation (30_encoding R60, R61). It is notation for the host's
bytes and has no effect on the model (D21). -/

namespace Sys2Proof.Machine

/-- The name of a code parameter (00_scope R9). -/
inductive CodeName where
  | cmdConfigTc | cmdSetPower | cmdAuto | cmdManual | cmdShutdown
  | ackConfigTc | ackSetPower | ackAuto | ackManual | ackShutdown
deriving DecidableEq, Repr

/-- `cmd` of a SEND: a parameter name or a literal byte (R60). -/
inductive CodeRef where
  | param (n : CodeName)
  | literal (b : Byte)
deriving DecidableEq, Repr

/-- One statement of the notation (R60). -/
inductive Stimulus where
  | feed (b : Byte)
  | bytes (bs : List Byte)
  | send (cmd : CodeRef) (payload : Payload)
  | sendRaw (f : WireFrame)
deriving DecidableEq, Repr

/-- The value of a code parameter. -/
def codeValue (p : Params) (n : CodeName) : Byte :=
  match n with
  | .cmdConfigTc => p.cmdConfigTc
  | .cmdSetPower => p.cmdSetPower
  | .cmdAuto => p.cmdAuto
  | .cmdManual => p.cmdManual
  | .cmdShutdown => p.cmdShutdown
  | .ackConfigTc => p.ackConfigTc
  | .ackSetPower => p.ackSetPower
  | .ackAuto => p.ackAuto
  | .ackManual => p.ackManual
  | .ackShutdown => p.ackShutdown

/-- The byte a `cmd` stands for. -/
def codeRefValue (p : Params) (c : CodeRef) : Byte :=
  match c with
  | .param n => codeValue p n
  | .literal b => b

/-- The FEED bytes a statement expands to, in order (R60). -/
def stimulusBytes (p : Params) (st : Stimulus) : List Byte :=
  match st with
  | .feed b => [b]
  | .bytes bs => bs
  | .send cmd payload => frameBytes (encodeFrame (codeRefValue p cmd) payload)
  | .sendRaw f => frameBytes f

/-- A hexadecimal digit, capital letters (00_scope R11). -/
def hexDigit (n : Nat) : Char := if n < 10 then Char.ofNat (48 + n) else Char.ofNat (55 + n)

/-- A byte as two hexadecimal digits (00_scope R11). -/
def hexByte (b : Byte) : List Char := [hexDigit (b.toNat / 16), hexDigit (b.toNat % 16)]

/-- An output event as R61 writes it, as a list of characters. -/
def eventText (e : Event) : List Char :=
  match e with
  | .setTc v => "SETTC 0x".toList ++ hexByte v
  | .setPower v => "SETPOWER 0x".toList ++ hexByte v
  | .write f => "WRITE".toList ++ (frameBytes f).flatMap (fun b => ' ' :: hexByte b)

/-- An outcome's name (60_exceptions R101). -/
def outcomeName (o : FeedOutcome) : String :=
  match o with
  | .noiseDiscarded => "NOISE_DISCARDED"
  | .frameStarted => "FRAME_STARTED"
  | .byteAccumulated => "BYTE_ACCUMULATED"
  | .frameInvalid => "FRAME_INVALID"
  | .unrecognized => "UNRECOGNIZED"
  | .dispatchedConfigTc => "DISPATCHED_CONFIG_TC"
  | .dispatchedSetPower => "DISPATCHED_SET_POWER"
  | .dispatchedAuto => "DISPATCHED_AUTO"
  | .dispatchedManual => "DISPATCHED_MANUAL"
  | .dispatchedShutdown => "DISPATCHED_SHUTDOWN"

/-- The outcome of a transaction as R61 writes it, as a list of characters. -/
def outcomeText (o : FeedOutcome) : List Char := "-> ".toList ++ (outcomeName o).toList

end Sys2Proof.Machine
end

