-- ==== Sys2Proof/Tests/Slice0.lean ====
section
/-! SUPPORT. The model's own tests. Every expected value is from spec/95_test_vectors.md (the vector is named in the
comment) or written out by hand from the cited rule; none was computed by the model. -/

namespace Sys2Proof.Machine.Tests

/-- The next state, where there is one. -/
def nextOf (a : Answer) : Option State :=
  match a with
  | .next t => some t
  | _ => none

/-- A state under EX with these registers and waiting bytes. -/
def at_ (mode : Mode) (buf : List Byte) (input : List Byte) : State :=
  { State.reset with mode := mode, count := buf.length, buf := buf, input := input }

/-- The set EX2 of 95_test_vectors: EX with TC_INDEX = 2 and TC_ACK_INDEX = 1. -/
def ex2 : Params := { Config.tieOff with tcIndex := 2, tcAckIndex := 1 }

/-- Two equal request codes (95_test_vectors, "Dispatch refusal"). -/
def equalCodes : Params := { Config.tieOff with cmdAuto := 0x03#8, cmdManual := 0x03#8 }

/-- What a step or a meaning shows at the ports and in the registers. -/
structure Shown where
  mode     : Mode
  count    : Nat
  buf      : List Byte
  events   : List Event
  outcomes : List FeedOutcome
deriving DecidableEq, Repr

/-- What an answer shows, where it is a next state. -/
def shown (a : Answer) : Option Shown :=
  (nextOf a).map fun t => ⟨t.mode, t.count, t.buf, t.events, t.outcomes⟩

/-- Eight bytes as a frame, in wire order. -/
def fr (m c p0 p1 p2 p3 r k : Byte) : WireFrame := ⟨m, c, ⟨p0, p1, p2, p3⟩, r, k⟩

/-! ## WellFormed: an ill-formed term for each check -/

theorem test_wf_noise_is_not_the_marker : wellFormed Config.tieOff (.feedNoise 0x7E#8) = false := by decide
theorem test_wf_unrecognized_is_no_request_code :
    wellFormed Config.tieOff (.unrecognized 0x02#8 zeroPayload 0x00#8) = false := by decide
theorem test_wf_invalid_frame_is_not_valid :
    wellFormed Config.tieOff (.frameInvalid (fr 0x7E 0x02 0x32 0x00 0x00 0x00 0x00 0x4D)) = false := by decide
theorem test_wf_checksum_within_the_bytes : wellFormed Config.tieOff (.checksum [0x01#8] 2) = false := by decide
theorem test_wf_equal_request_codes_are_refused : ¬ equalCodes.Distinct := by decide
theorem test_wf_accepts_ex : Config.tieOff.Distinct ∧ ex2.Distinct := by decide

/-! ## Decoding: bytes written out from 30_encoding R46, R56 -/

theorem test_decode_feedNoise : decode ex2 (.feed .seeking 0) [0x7F#8] = .ok (.feedNoise 0x7F#8) := by rfl
theorem test_decode_feedStart : decode ex2 (.feed .seeking 0) [0x7E#8] = .ok .feedStart := by rfl
theorem test_decode_feedData : decode ex2 (.feed .accumulating 6) [0x7E#8] = .ok (.feedData 0x7E#8) := by rfl
theorem test_decode_feedEnd : decode ex2 (.feed .accumulating 7) [0x7E#8] = .ok (.feedEnd 0x7E#8) := by rfl
theorem test_decode_feed_full_buffer : decode ex2 (.feed .accumulating 8) [0x00#8] = .error .bufferFull := by rfl
theorem test_decode_feed_two_bytes : decode ex2 (.feed .seeking 0) [0x7E#8, 0x7E#8] = .error .notOneByte := by rfl
/-- X12 -/
theorem test_decode_configTc :
    decode ex2 .inbound [0x7E#8, 0x01#8, 0x05#8, 0x09#8, 0x0A#8, 0x09#8, 0x00#8, 0x5F#8] =
      .ok (.configTc ⟨0x05#8, 0x09#8, 0x0A#8, 0x09#8⟩ 0x00#8) := by rfl
/-- X13: a reserved byte of 01 -/
theorem test_decode_setPower :
    decode ex2 .inbound [0x7E#8, 0x02#8, 0x32#8, 0x00#8, 0x00#8, 0x00#8, 0x01#8, 0x4C#8] =
      .ok (.setPower ⟨0x32#8, 0x00#8, 0x00#8, 0x00#8⟩ 0x01#8) := by rfl
/-- E6 -/
theorem test_decode_enableAuto :
    decode ex2 .inbound [0x7E#8, 0x03#8, 0x00#8, 0x00#8, 0x00#8, 0x00#8, 0x00#8, 0x7E#8] =
      .ok (.enableAuto zeroPayload 0x00#8) := by rfl
/-- E7 -/
theorem test_decode_enableManual :
    decode ex2 .inbound [0x7E#8, 0x04#8, 0x00#8, 0x00#8, 0x00#8, 0x00#8, 0x00#8, 0x7D#8] =
      .ok (.enableManual zeroPayload 0x00#8) := by rfl
/-- E8 -/
theorem test_decode_shutdown :
    decode ex2 .inbound [0x7E#8, 0x05#8, 0x00#8, 0x00#8, 0x00#8, 0x00#8, 0x00#8, 0x7C#8] =
      .ok (.shutdown zeroPayload 0x00#8) := by rfl
/-- X7: an inbound ack code -/
theorem test_decode_unrecognized :
    decode ex2 .inbound [0x7E#8, 0x82#8, 0x32#8, 0x00#8, 0x00#8, 0x00#8, 0x00#8, 0xCD#8] =
      .ok (.unrecognized 0x82#8 ⟨0x32#8, 0x00#8, 0x00#8, 0x00#8⟩ 0x00#8) := by rfl
/-- DV13: the marker test; DV8: the checksum test -/
theorem test_decode_frameInvalid :
    decode ex2 .inbound [0xFE#8, 0x82#8, 0x32#8, 0x00#8, 0x00#8, 0x00#8, 0x00#8, 0x4D#8] =
      .ok (.frameInvalid (fr 0xFE 0x82 0x32 0x00 0x00 0x00 0x00 0x4D)) ∧
    decode ex2 .inbound [0x7E#8, 0x02#8, 0x32#8, 0x00#8, 0x00#8, 0x00#8, 0x00#8, 0x4C#8] =
      .ok (.frameInvalid (fr 0x7E 0x02 0x32 0x00 0x00 0x00 0x00 0x4C)) := by
  exact ⟨by rfl, by rfl⟩
theorem test_decode_seven_bytes :
    decode ex2 .inbound [0x7E#8, 0x02#8, 0x32#8, 0x00#8, 0x00#8, 0x00#8, 0x00#8] = .error .notOneFrame := by rfl
theorem test_decode_equal_codes :
    decode equalCodes .inbound [0x7E#8, 0x03#8, 0x00#8, 0x00#8, 0x00#8, 0x00#8, 0x00#8, 0x7E#8] =
      .error .codesNotDistinct := by rfl
/-- the ack of X12, on WRITE -/
theorem test_decode_ackConfigTc :
    decode ex2 .outbound [0x7E#8, 0x81#8, 0x00#8, 0x0A#8, 0x00#8, 0x00#8, 0x00#8, 0xF6#8] =
      .ok (.ackConfigTcFrame 0x0A#8) := by decide
/-- the ack of X9 -/
theorem test_decode_ackSetPower :
    decode ex2 .outbound [0x7E#8, 0x82#8, 0xFF#8, 0x00#8, 0x00#8, 0x00#8, 0x00#8, 0x00#8] =
      .ok (.ackSetPowerFrame 0xFF#8) := by decide
/-- the acks of X3, X4, X5 -/
theorem test_decode_ackAuto :
    decode ex2 .outbound [0x7E#8, 0x83#8, 0x00#8, 0x00#8, 0x00#8, 0x00#8, 0x00#8, 0xFE#8] = .ok .ackAutoFrame := by decide
theorem test_decode_ackManual :
    decode ex2 .outbound [0x7E#8, 0x84#8, 0x00#8, 0x00#8, 0x00#8, 0x00#8, 0x00#8, 0xFD#8] = .ok .ackManualFrame := by decide
theorem test_decode_ackShutdown :
    decode ex2 .outbound [0x7E#8, 0x85#8, 0x00#8, 0x00#8, 0x00#8, 0x00#8, 0x00#8, 0xFC#8] = .ok .ackShutdownFrame := by decide
/-- an ack with a non-zero reserved byte is none of the five (30_encoding R55) -/
theorem test_decode_written_noise :
    decode ex2 .outbound [0x7E#8, 0x85#8, 0x00#8, 0x00#8, 0x00#8, 0x00#8, 0x01#8, 0xFB#8] = .error .notAnAck := by decide
/-- the codec rows have no encoding (30_encoding R62) -/
theorem test_encode_codec_rows :
    encode ex2 (.checksum [0x01#8] 1) = none ∧ encode ex2 (.encode 0x02#8 zeroPayload) = none ∧
    encode ex2 (.decode (fr 0 0 0 0 0 0 0 0)) = none := by decide
/-- W of the W1 frame: offset 0 at bits 63:56 (00_scope R11) -/
theorem test_word_layout :
    frameWord (fr 0x7E 0x02 0x32 0x00 0x00 0x00 0x00 0x4D) = 0x7E0232000000004D ∧
    frameOfWord 0x7E0232000000004D = fr 0x7E 0x02 0x32 0x00 0x00 0x00 0x00 0x4D := by decide

/-! ## The FEED rows (95_test_vectors 2.4) -/

/-- A2 -/
theorem test_feedNoise_A2 :
    shown (step (at_ .seeking [] [0x7D#8])) = some ⟨.seeking, 0, [], [], [.noiseDiscarded]⟩ := by decide
/-- A4 -/
theorem test_feedStart_A4 :
    shown (step (at_ .seeking [] [0x7E#8])) = some ⟨.accumulating, 1, [0x7E#8], [], [.frameStarted]⟩ := by decide
/-- A5: a marker inside a frame is data -/
theorem test_feedData_A5 :
    shown (step (at_ .accumulating [0x7E#8] [0x7E#8])) =
      some ⟨.accumulating, 2, [0x7E#8, 0x7E#8], [], [.byteAccumulated]⟩ := by decide
/-- A6: the seventh byte -/
theorem test_feedData_A6 :
    shown (step (at_ .accumulating [0x7E#8, 0x02#8, 0x32#8, 0x00#8, 0x00#8, 0x00#8] [0x00#8])) =
      some ⟨.accumulating, 7, [0x7E#8, 0x02#8, 0x32#8, 0x00#8, 0x00#8, 0x00#8, 0x00#8], [], [.byteAccumulated]⟩ := by decide
/-- A7 -/
theorem test_feedEnd_A7 :
    shown (step (at_ .accumulating [0x7E#8, 0x02#8, 0x32#8, 0x00#8, 0x00#8, 0x00#8, 0x00#8] [0x4D#8])) =
      some ⟨.seeking, 0, [], [.setPower 0x32#8, .write (fr 0x7E 0x82 0x32 0x00 0x00 0x00 0x00 0xCD)],
        [.dispatchedSetPower]⟩ := by decide
/-- A10: a marker as a bad checksum byte does not start a frame -/
theorem test_feedEnd_A10 :
    shown (step (at_ .accumulating [0x7E#8, 0x02#8, 0x32#8, 0x00#8, 0x00#8, 0x00#8, 0x00#8] [0x7E#8])) =
      some ⟨.seeking, 0, [], [], [.frameInvalid]⟩ := by decide

/-! ## The frame rows (95_test_vectors 2.5) -/

/-- X11 under EX, X12 under EX2 -/
theorem test_configTc_X11_X12 :
    shown (exec (.configTc ⟨0x05#8, 0x09#8, 0x09#8, 0x09#8⟩ 0x00#8) State.reset) =
      some ⟨.seeking, 0, [], [.setTc 0x05#8, .write (fr 0x7E 0x81 0x05 0x00 0x00 0x00 0x00 0xFB)],
        [.dispatchedConfigTc]⟩ ∧
    shown (exec (.configTc ⟨0x05#8, 0x09#8, 0x0A#8, 0x09#8⟩ 0x00#8) (State.resetWith ex2)) =
      some ⟨.seeking, 0, [], [.setTc 0x0A#8, .write (fr 0x7E 0x81 0x00 0x0A 0x00 0x00 0x00 0xF6)],
        [.dispatchedConfigTc]⟩ := by decide
/-- X9, X14 -/
theorem test_setPower_X9_X14 :
    shown (exec (.setPower ⟨0xFF#8, 0x00#8, 0x00#8, 0x00#8⟩ 0x00#8) State.reset) =
      some ⟨.seeking, 0, [], [.setPower 0xFF#8, .write (fr 0x7E 0x82 0xFF 0x00 0x00 0x00 0x00 0x00)],
        [.dispatchedSetPower]⟩ ∧
    shown (exec (.setPower ⟨0x32#8, 0xAA#8, 0xBB#8, 0xCC#8⟩ 0x00#8) State.reset) =
      some ⟨.seeking, 0, [], [.setPower 0x32#8, .write (fr 0x7E 0x82 0x32 0x00 0x00 0x00 0x00 0xCD)],
        [.dispatchedSetPower]⟩ := by decide
/-- X3 -/
theorem test_enableAuto_X3 :
    shown (exec (.enableAuto zeroPayload 0x00#8) State.reset) =
      some ⟨.seeking, 0, [], [.write (fr 0x7E 0x83 0x00 0x00 0x00 0x00 0x00 0xFE)], [.dispatchedAuto]⟩ := by decide
/-- X4 -/
theorem test_enableManual_X4 :
    shown (exec (.enableManual zeroPayload 0x00#8) State.reset) =
      some ⟨.seeking, 0, [], [.write (fr 0x7E 0x84 0x00 0x00 0x00 0x00 0x00 0xFD)], [.dispatchedManual]⟩ := by decide
/-- X5 -/
theorem test_shutdown_X5 :
    shown (exec (.shutdown zeroPayload 0x00#8) State.reset) =
      some ⟨.seeking, 0, [], [.write (fr 0x7E 0x85 0x00 0x00 0x00 0x00 0x00 0xFC)], [.dispatchedShutdown]⟩ := by decide
/-- X6 -/
theorem test_unrecognized_X6 :
    shown (exec (.unrecognized 0x10#8 zeroPayload 0x00#8) State.reset) =
      some ⟨.seeking, 0, [], [], [.unrecognized]⟩ := by decide
/-- DV15 -/
theorem test_frameInvalid_DV15 :
    shown (exec (.frameInvalid (fr 0x7E 0x00 0x00 0x00 0x00 0x00 0x00 0x00)) State.reset) =
      some ⟨.seeking, 0, [], [], [.frameInvalid]⟩ := by decide
/-- 95_test_vectors 2.2, the ack frames under EX -/
theorem test_ack_rows :
    shown (exec (.ackConfigTcFrame 0x7E#8) State.reset) =
      some ⟨.seeking, 0, [], [.write (fr 0x7E 0x81 0x7E 0x00 0x00 0x00 0x00 0x82)], []⟩ ∧
    shown (exec (.ackSetPowerFrame 0x00#8) State.reset) =
      some ⟨.seeking, 0, [], [.write (fr 0x7E 0x82 0x00 0x00 0x00 0x00 0x00 0xFF)], []⟩ ∧
    shown (exec .ackAutoFrame State.reset) =
      some ⟨.seeking, 0, [], [.write (fr 0x7E 0x83 0x00 0x00 0x00 0x00 0x00 0xFE)], []⟩ ∧
    shown (exec .ackManualFrame State.reset) =
      some ⟨.seeking, 0, [], [.write (fr 0x7E 0x84 0x00 0x00 0x00 0x00 0x00 0xFD)], []⟩ ∧
    shown (exec .ackShutdownFrame State.reset) =
      some ⟨.seeking, 0, [], [.write (fr 0x7E 0x85 0x00 0x00 0x00 0x00 0x00 0xFC)], []⟩ := by decide

/-! ## The codec (95_test_vectors 2.1 to 2.3) -/

/-- K8: seven times FF wraps -/
theorem test_checksum_K8 :
    (nextOf (exec (.checksum [0xFF#8, 0xFF#8, 0xFF#8, 0xFF#8, 0xFF#8, 0xFF#8, 0xFF#8] 7) State.reset)).map (·.codecResult) =
      some (some (.byte 0x06#8)) := by decide
/-- K6: only the first n bytes count; K1: the seed -/
theorem test_checksum_K6_K1 :
    checksum [0x01#8, 0x02#8, 0x03#8] 2 = 0xFC#8 ∧ checksum [] 0 = 0xFF#8 := by decide
/-- E2, E3 -/
theorem test_encode_E2_E3 :
    encodeFrame 0x7E#8 ⟨0x7E#8, 0x7E#8, 0x7E#8, 0x7E#8⟩ = fr 0x7E 0x7E 0x7E 0x7E 0x7E 0x7E 0x00 0x0B ∧
    (nextOf (exec (.encode 0xFF#8 ⟨0xFF#8, 0xFF#8, 0xFF#8, 0xFF#8⟩) State.reset)).map (·.codecResult) =
      some (some (.frame (fr 0x7E 0xFF 0xFF 0xFF 0xFF 0xFF 0x00 0x86))) := by decide
/-- DV2: the reserved byte is not checked -/
theorem test_decode_DV2 :
    (nextOf (exec (.decode (fr 0x7E 0x02 0x32 0x00 0x00 0x00 0x01 0x4C)) State.reset)).map (·.codecResult) =
      some (some (.decoded (.ok ⟨0x02#8, ⟨0x32#8, 0x00#8, 0x00#8, 0x00#8⟩, 0x01#8, 0x4C#8⟩))) := by decide
/-- DV9, DV10, DV11: missed two-bit errors; DV12: two bits in one byte -/
theorem test_decode_DV9_to_DV12 :
    decodeFrame (fr 0x7E 0x02 0x33 0x00 0x00 0x00 0x00 0x4C) ≠ .frameInvalid ∧
    decodeFrame (fr 0x7E 0x02 0xB2 0x80 0x00 0x00 0x00 0x4D) ≠ .frameInvalid ∧
    decodeFrame (fr 0x7E 0x02 0x30 0x02 0x00 0x00 0x00 0x4D) ≠ .frameInvalid ∧
    decodeFrame (fr 0x7E 0x02 0x02 0x00 0x00 0x00 0x00 0x4D) = .frameInvalid := by decide

/-! ## Notation (30_encoding R60, R61) -/

/-- P1's SEND -/
theorem test_stimulus_send :
    stimulusBytes Config.tieOff (.send (.param .cmdSetPower) ⟨0x32#8, 0x00#8, 0x00#8, 0x00#8⟩) =
      [0x7E#8, 0x02#8, 0x32#8, 0x00#8, 0x00#8, 0x00#8, 0x00#8, 0x4D#8] := by decide
theorem test_hexByte : hexByte 0x7E#8 = ['7', 'E'] ∧ hexByte 0x0B#8 = ['0', 'B'] := by decide
theorem test_eventText :
    eventText (.setTc 0x03#8) = "SETTC 0x03".toList ∧
    eventText (.write (fr 0x7E 0x82 0x32 0x00 0x00 0x00 0x00 0xCD)) = "WRITE 7E 82 32 00 00 00 00 CD".toList := by decide

/-! ## Witnesses: for each statement with hypotheses, a state and operands that meet all of them -/

/-- The seven bytes of W1 before its checksum. -/
def w1Head : List Byte := [0x7E#8, 0x02#8, 0x32#8, 0x00#8, 0x00#8, 0x00#8, 0x00#8]
/-- W1's frame. -/
def w1 : WireFrame := fr 0x7E 0x02 0x32 0x00 0x00 0x00 0x00 0x4D

theorem witness_StepKeepsTheBoundaryShape :
    (Boundary (at_ .accumulating w1Head [0x4D#8]) ∧ ∃ t, step (at_ .accumulating w1Head [0x4D#8]) = .next t) ∧
    Reachable ex2 (State.resetWith ex2) := ⟨⟨by decide, _, rfl⟩, .reset⟩

theorem witness_InvariantGuard :
    (RegInv (at_ .seeking [] [0x7E#8]) ∧ ∃ t, step (at_ .seeking [] [0x7E#8]) = .next t) ∧
    (∃ s : State, s.params.Distinct ∧ ¬ RegInv s) :=
  ⟨⟨by decide, _, rfl⟩, { State.reset with count := 9 }, by decide⟩

theorem witness_EqualRequestCodesAreRefused :
    ¬ (State.resetWith equalCodes).params.Distinct ∧ (State.resetWith ex2).params.Distinct := by decide

theorem witness_StepRunsTheDecodedRow :
    Ready (at_ .accumulating w1Head [0x4D#8]) ∧
    decode Config.tieOff (.feed .accumulating 7) [0x4D#8] = .ok (.feedEnd 0x4D#8) := ⟨by decide, rfl⟩

theorem witness_IdleBlockHoldsItsState :
    Ready (at_ .accumulating w1Head []) ∧ (at_ .accumulating w1Head []).input = [] := by decide

theorem witness_NothingStopsTheBlock :
    (at_ .accumulating w1Head [0x00#8]).params.Distinct ∧ Boundary (at_ .accumulating w1Head [0x00#8]) ∧
    ex2.Distinct ∧ Reachable ex2 (State.resetWith ex2) := ⟨by decide, by decide, by decide, .reset⟩

theorem witness_AppendToAFullBufferFaults :
    Ready (at_ .accumulating (frameBytes w1) [0x00#8]) ∧ (at_ .accumulating (frameBytes w1) [0x00#8]).mode = .accumulating ∧
    (at_ .accumulating (frameBytes w1) [0x00#8]).count = 8 ∧
    (at_ .accumulating (frameBytes w1) [0x00#8]).input = [0x00#8] := by decide

theorem witness_NoiseIsDiscarded :
    Ready (at_ .seeking [] []) ∧ (at_ .seeking [] []).mode = .seeking ∧ (0x7F#8 : Byte) ≠ 0x7E#8 := by decide

theorem witness_MarkerStartsAFrame : Ready (at_ .seeking [] []) ∧ (at_ .seeking [] []).mode = .seeking := by decide

/-- at both ends of the count's range in R76, and at the count 0 of log entry 7 -/
theorem witness_FrameDataIsAppended :
    (Ready (at_ .accumulating [0x7E#8] []) ∧ (at_ .accumulating [0x7E#8] []).count = 1) ∧
    (Ready (at_ .accumulating (w1Head.take 6) []) ∧ (at_ .accumulating (w1Head.take 6) []).mode = .accumulating ∧
      (at_ .accumulating (w1Head.take 6) []).count = 6) ∧
    (Ready (at_ .accumulating [] []) ∧ (at_ .accumulating [] []).count = 0) := by decide

theorem witness_FrameEndCompletesTheCandidate :
    Ready (at_ .accumulating w1Head []) ∧ (at_ .accumulating w1Head []).mode = .accumulating ∧
    (at_ .accumulating w1Head []).count = 7 ∧ (at_ .accumulating w1Head []).buf.head? = some 0x7E#8 ∧
    decodeFrame (fr 0x7E 0x02 0x32 0x00 0x00 0x00 0x00 0x4E) = .frameInvalid := by decide

theorem witness_FrameEndRunsTheFrameRow :
    Ready (at_ .accumulating w1Head []) ∧ (at_ .accumulating w1Head []).mode = .accumulating ∧
    (at_ .accumulating w1Head []).count = 7 := by decide

/-- one state and byte for each of the four clauses: the marker in SEEKING, and counts 7 and 6 in ACCUMULATING -/
theorem witness_FeedRowsRunOnlyWhereSelected :
    (Ready (at_ .seeking [] []) ∧ ¬ ((at_ .seeking [] []).mode = .seeking ∧ (0x7E#8 : Byte) ≠ 0x7E#8)) ∧
    (Ready (at_ .accumulating w1Head []) ∧ ¬ ((at_ .accumulating w1Head []).count ≤ 6)) ∧
    (Ready (at_ .accumulating (w1Head.take 6) []) ∧ ¬ ((at_ .accumulating (w1Head.take 6) []).count = 7)) := by decide

theorem witness_ConfigureThermocouple : (State.resetWith ex2).params.Distinct := by decide
theorem witness_SetPower : State.reset.params.Distinct := by decide
theorem witness_StubCommandsOnlyAcknowledge : (at_ .accumulating w1Head []).params.Distinct := by decide

/-- 0x00 and 0x06, the values next to the request codes of EX, and the codes 0x01 and 0x05 themselves -/
theorem witness_UnrecognizedIsDropped :
    State.reset.params.Distinct ∧
    (∀ c ∈ [0x00#8, 0x06#8], c ≠ Config.tieOff.cmdConfigTc ∧ c ≠ Config.tieOff.cmdSetPower ∧ c ≠ Config.tieOff.cmdAuto ∧
      c ≠ Config.tieOff.cmdManual ∧ c ≠ Config.tieOff.cmdShutdown) ∧
    (0x01#8 : Byte) = State.reset.params.cmdConfigTc ∧ (0x05#8 : Byte) = State.reset.params.cmdShutdown := by decide

theorem witness_InvalidFrameIsDropped :
    State.reset.params.Distinct ∧ decodeFrame (fr 0x7E 0x02 0x32 0x00 0x00 0x00 0x00 0x4E) = .frameInvalid ∧
    decodeFrame w1 ≠ .frameInvalid := by decide

theorem witness_AckRowsWriteOneValidFrame : (State.resetWith ex2).params.Distinct := by decide

theorem witness_DispatchRefusesEqualRequestCodes :
    ¬ (State.resetWith equalCodes).params.Distinct ∧ (∀ bytes n, Instr.feedStart ≠ .checksum bytes n) ∧
    (∀ c p, Instr.feedStart ≠ .encode c p) ∧ (∀ f, Instr.feedStart ≠ .decode f) :=
  ⟨by decide, nofun, nofun, nofun⟩

/-- n at the length, and one beyond it -/
theorem witness_ChecksumRow : 7 ≤ w1Head.length ∧ w1Head.length < 8 := by decide
theorem witness_ChecksumClosedForm : 7 ≤ w1Head.length ∧ 0 ≤ ([] : List Byte).length := by decide

theorem witness_DecodeRow :
    (w1.marker = 0x7E#8 ∧ w1.checksum = checksum (frameHead w1) 7) ∧
    (fr 0x7F 0x02 0x32 0x00 0x00 0x00 0x00 0x4D).marker ≠ 0x7E#8 ∧
    (fr 0x7E 0x02 0x32 0x00 0x00 0x00 0x00 0x4E).checksum ≠
      checksum (frameHead (fr 0x7E 0x02 0x32 0x00 0x00 0x00 0x00 0x4E)) 7 := by decide

/-- DV6: bit 7 of byte 2 -/
theorem witness_SingleBitErrorsAreDetected :
    Valid w1 ∧ frameBytes (fr 0x7E 0x02 0xB2 0x00 0x00 0x00 0x00 0x4D) = flipBit (frameBytes w1) 2 7 := by decide

/-- DV10 (i and j differ) and DV12 (two bits of one byte) -/
theorem witness_TwoBitErrorsMissed :
    Valid w1 ∧
    frameBytes (fr 0x7E 0x02 0xB2 0x80 0x00 0x00 0x00 0x4D) = flipBit (flipBit (frameBytes w1) 2 7) 3 7 ∧
    frameBytes (fr 0x7E 0x02 0x02 0x00 0x00 0x00 0x00 0x4D) = flipBit (flipBit (frameBytes w1) 2 4) 2 5 := by decide

theorem witness_DecodeOfEncode :
    ex2.Distinct ∧ wellFormed ex2 (.ackSetPowerFrame 0x32#8) = true ∧
    siteFits .outbound (.ackSetPowerFrame 0x32#8) = true ∧ ex2.ackCodes.Nodup ∧
    encode ex2 (.ackSetPowerFrame 0x32#8) =
      some [0x7E#8, 0x82#8, 0x32#8, 0x00#8, 0x00#8, 0x00#8, 0x00#8, 0xCD#8] := by decide

theorem witness_EncodeOfDecode :
    decode ex2 .inbound (frameBytes w1) = .ok (.setPower ⟨0x32#8, 0x00#8, 0x00#8, 0x00#8⟩ 0x00#8) := by rfl

theorem witness_DecoderAnswersEveryByteString :
    encode ex2 .ackAutoFrame = some [0x7E#8, 0x83#8, 0x00#8, 0x00#8, 0x00#8, 0x00#8, 0x00#8, 0xFE#8] ∧
    siteFits .outbound .ackAutoFrame = true := by decide

theorem witness_FedByteClasses :
    (0x7D#8 : Byte) ≠ 0x7E#8 ∧ decode ex2 (.feed .accumulating 0) [0x7E#8] = .ok (.feedData 0x7E#8) ∧
    decode ex2 (.feed .accumulating 6) [0x7D#8] = .ok (.feedData 0x7D#8) ∧
    decode ex2 (.feed .accumulating 7) [0x7D#8] = .ok (.feedEnd 0x7D#8) :=
  ⟨by decide, rfl, rfl, rfl⟩

theorem witness_CommandSelection :
    ex2.Distinct ∧ Valid w1 ∧ w1.command = ex2.cmdSetPower ∧ ¬ Valid (fr 0x7E 0x10 0x00 0x00 0x00 0x00 0x00 0x00) ∧
    Valid (encodeFrame 0x01#8 zeroPayload) ∧ Valid (encodeFrame 0x05#8 zeroPayload) ∧
    (encodeFrame 0x10#8 zeroPayload).command ∉ ex2.requestCodes := by decide

theorem witness_TableWordsRunAsDecoded :
    State.reset.params = Config.tieOff ∧ decodeTableWord 8 0x7E = some .feedStart ∧
    decodeTableWord 64 0x7E00000000000000 = some (.frameInvalid (fr 0x7E 0x00 0x00 0x00 0x00 0x00 0x00 0x00)) :=
  ⟨rfl, rfl, rfl⟩

theorem witness_StepIsTheFeedTransaction :
    Ready (at_ .accumulating w1Head [0x4D#8]) ∧ (at_ .accumulating w1Head [0x4D#8]).count ≤ 7 ∧
    (at_ .accumulating w1Head [0x4D#8]).input = [0x4D#8] := by decide

theorem witness_OneOutcomePerTransaction :
    (at_ .accumulating w1Head [0x4D#8]).input = [0x4D#8] ∧ ∃ t, step (at_ .accumulating w1Head [0x4D#8]) = .next t :=
  ⟨rfl, _, rfl⟩

theorem witness_EventTraceIsAccountedFor :
    (traceAccounted State.reset.params State.reset.outcomes State.reset.events = true ∧
      ∃ t, step (at_ .accumulating w1Head [0x4D#8]) = .next t) ∧
    Reachable ex2 (State.resetWith ex2) := ⟨⟨rfl, _, rfl⟩, .reset⟩

theorem witness_FrameOfTheFeedRows :
    (∃ t, exec (.feedNoise 0x00#8) (at_ .seeking [] []) = .next t) ∧
    (∃ t, exec .feedStart (at_ .seeking [] []) = .next t) ∧
    (∃ t, exec (.feedData 0x00#8) (at_ .accumulating [0x7E#8] []) = .next t) ∧
    (∃ t, exec (.feedEnd 0x4D#8) (at_ .accumulating w1Head []) = .next t) :=
  ⟨⟨_, rfl⟩, ⟨_, rfl⟩, ⟨_, rfl⟩, _, rfl⟩

theorem witness_FrameOfTheFrameRows :
    (siteFits .inbound (.shutdown zeroPayload 0x00#8) = true ∧
      ∃ t, exec (.shutdown zeroPayload 0x00#8) (at_ .accumulating w1Head []) = .next t) ∧
    (siteFits .outbound .ackAutoFrame = true ∧ ∃ t, exec .ackAutoFrame (at_ .accumulating w1Head []) = .next t) :=
  ⟨⟨rfl, _, rfl⟩, rfl, _, rfl⟩

theorem witness_FrameOfTheCodecRows :
    (∀ site, siteFits site (.decode w1) = false) ∧ ∃ t, exec (.decode w1) State.reset = .next t := ⟨fun _ => rfl, _, rfl⟩

theorem witness_OutputsAreNotReadBack : ∃ t, step (at_ .accumulating w1Head [0x4D#8]) = .next t := ⟨_, rfl⟩

theorem witness_NoMidFrameResynchronization :
    (Ready (at_ .accumulating [0x7E#8] [0x7E#8]) ∧ (at_ .accumulating [0x7E#8] [0x7E#8]).count ≤ 6) ∧
    (Ready (at_ .accumulating w1Head [0x7E#8]) ∧ (at_ .accumulating w1Head [0x7E#8]).mode = .accumulating ∧
      (at_ .accumulating w1Head [0x7E#8]).count = 7 ∧ (at_ .accumulating w1Head [0x7E#8]).input = [0x7E#8]) := by decide

theorem witness_OnlyNoiseIsIdempotent :
    (Boundary (at_ .seeking [] [0x00#8]) ∧ ∃ t, step (at_ .seeking [] [0x00#8]) = .next t) ∧
    (Boundary (at_ .seeking [] [0x7E#8]) ∧ ∃ t, step (at_ .seeking [] [0x7E#8]) = .next t) :=
  ⟨⟨by decide, _, rfl⟩, by decide, _, rfl⟩

/-- X13 and X14 against W1 -/
theorem witness_ReservedAndUnusedBytesAreIgnored :
    Ready State.reset ∧ State.reset.mode = .seeking ∧
    Valid (fr 0x7E 0x02 0x32 0x00 0x00 0x00 0x01 0x4C) ∧ Valid (fr 0x7E 0x02 0x32 0xAA 0xBB 0xCC 0x00 0x1C) ∧
    State.reset.params.cmdConfigTc ≠ 0x02#8 := by decide

theorem witness_AckFedBackGoesByItsCode :
    Ready (at_ .seeking [] (frameBytes (encodeFrame 0x82#8 ⟨0x32#8, 0x00#8, 0x00#8, 0x00#8⟩))) ∧
    (0x82#8 : Byte) ∉ State.reset.params.requestCodes ∧ (0x02#8 : Byte) ∈ State.reset.params.requestCodes := by decide

/-- P1 -/
theorem witness_Resynchronization :
    Ready (at_ .seeking [] ([0x00#8, 0xFF#8, 0x7D#8] ++ frameBytes w1)) ∧
    (∀ b ∈ [0x00#8, 0xFF#8, 0x7D#8], b ≠ 0x7E#8) ∧ Valid w1 := by decide

/-- j at both ends of R82's range -/
theorem witness_PartialFrameStall :
    Ready (at_ .seeking [] []) ∧ (at_ .seeking [] []).input = [] ∧
    (w1Head.take 6).length ≤ 6 ∧ (w1Head.take 6).length + [0x00#8].length = 7 ∧
    ([] : List Byte).length + w1Head.length = 7 := by decide

/-- P2 -/
theorem witness_FalseMarkerTakesTheNextSevenBytes :
    Ready (at_ .seeking [] (frameBytes (fr 0x7E 0x7E 0x02 0x32 0x00 0x00 0x00 0x00) ++ [0x4D#8])) ∧
    (fr 0x7E 0x7E 0x02 0x32 0x00 0x00 0x00 0x00).checksum ≠
      checksum (frameHead (fr 0x7E 0x7E 0x02 0x32 0x00 0x00 0x00 0x00)) 7 := by decide

/-- P7, and the flush of a block in SEEKING -/
theorem witness_SevenByteFlush :
    Boundary (at_ .accumulating [0x7E#8, 0x02#8] (List.replicate 7 0x00#8)) ∧
    Boundary (at_ .seeking [] (List.replicate 7 0x00#8)) ∧ (List.replicate 7 (0x00#8 : Byte)).length = 7 ∧
    (∀ b ∈ List.replicate 7 (0x00#8 : Byte), b ≠ 0x7E#8) ∧ State.reset.params.Distinct := by decide

/-- W1 under EX -/
theorem witness_ConcreteScenarioOfTheSource :
    Ready (at_ .seeking [] (frameBytes w1)) ∧ (0x4F#8 - State.reset.params.cmdSetPower : Byte) = 0x4D#8 := by decide

theorem witness_BytesAreFedInOrder :
    1 ≤ (at_ .seeking [] [0x7E#8, 0x02#8]).input.length ∧ ∃ t, runSteps 1 (at_ .seeking [] [0x7E#8, 0x02#8]) = .next t :=
  ⟨by decide, _, rfl⟩

theorem witness_EveryBoundaryStateIsReachable : ex2.Distinct ∧ (w1Head.take 6).length ≤ 6 := by decide

end Sys2Proof.Machine.Tests
end

/-! ## The guards, the decoder and the transaction

What the guards answer where they stop, which byte strings the decoder gives a row, and what each row of the FEED
transaction does; the statements of 00_scope are short uses of these. -/

namespace Sys2Proof.Machine

/-! ### Where a guard stops -/

theorem ifConfigured_of_not_distinct {s : State} (h : ¬ s.params.Distinct) (k : Answer) :
    ifConfigured s k = .refused .codesNotDistinct := if_neg h

theorem feedGuard_of_not_distinct {s : State} (h : ¬ s.params.Distinct) (k : Answer) :
    feedGuard s k = .refused .codesNotDistinct := ifConfigured_of_not_distinct h _

theorem feedGuard_of_not_inv {s : State} (hd : s.params.Distinct) (hi : ¬ RegInv s) (k : Answer) :
    feedGuard s k = .fault .invariantViolated := by
  rw [feedGuard, ifConfigured_of_distinct hd, ifInvariant, if_neg hi]

/-- Distinct request codes (00_scope R10), as the ten inequalities. -/
theorem distinct_iff (p : Params) :
    p.Distinct ↔
      (p.cmdConfigTc ≠ p.cmdSetPower ∧ p.cmdConfigTc ≠ p.cmdAuto ∧ p.cmdConfigTc ≠ p.cmdManual ∧
       p.cmdConfigTc ≠ p.cmdShutdown ∧ p.cmdSetPower ≠ p.cmdAuto ∧ p.cmdSetPower ≠ p.cmdManual ∧
       p.cmdSetPower ≠ p.cmdShutdown ∧ p.cmdAuto ≠ p.cmdManual ∧ p.cmdAuto ≠ p.cmdShutdown ∧
       p.cmdManual ≠ p.cmdShutdown) := by
  simp [Params.Distinct, Params.requestCodes, and_assoc]

/-! ### The decoder at the FEED port (30_encoding R56) -/

@[simp] theorem decode_feed_singleton (p : Params) (m : Mode) (k : Nat) (b : Byte) :
    decode p (.feed m k) [b] = decodeFedByte m k b := rfl

theorem decodeFedByte_noise {b : Byte} (h : b ≠ Config.marker) (k : Nat) :
    decodeFedByte .seeking k b = .ok (.feedNoise b) := if_neg h

theorem decodeFedByte_marker (k : Nat) : decodeFedByte .seeking k Config.marker = .ok .feedStart := rfl

theorem decodeFedByte_data {k : Nat} (h : k ≤ 6) (b : Byte) :
    decodeFedByte .accumulating k b = .ok (.feedData b) :=
  if_pos (by simp only [Config.frameSize]; omega)

theorem decodeFedByte_end (b : Byte) : decodeFedByte .accumulating 7 b = .ok (.feedEnd b) := rfl

theorem decodeFedByte_full {k : Nat} (h : 8 ≤ k) (b : Byte) :
    decodeFedByte .accumulating k b = .error .bufferFull := by
  have hlt : ¬ k + 1 < Config.frameSize := by simp only [Config.frameSize]; omega
  have hne : ¬ k + 1 = Config.frameSize := by simp only [Config.frameSize]; omega
  simp only [decodeFedByte, if_neg hlt, if_neg hne]

/-- A fed byte has a row exactly in SEEKING or with room for one more byte. -/
theorem decodeFedByte_ok_iff (m : Mode) (k : Nat) (b : Byte) :
    (∃ i, decodeFedByte m k b = .ok i) ↔ m = .seeking ∨ k ≤ 7 := by
  cases m with
  | seeking =>
    by_cases hb : b = Config.marker
    · exact iff_of_true ⟨_, hb ▸ decodeFedByte_marker k⟩ (.inl rfl)
    · exact iff_of_true ⟨_, decodeFedByte_noise hb k⟩ (.inl rfl)
  | accumulating =>
    rcases Nat.lt_trichotomy k 7 with hk | rfl | hk
    · exact iff_of_true ⟨_, decodeFedByte_data (Nat.le_of_lt_succ hk) b⟩ (.inr hk.le)
    · exact iff_of_true ⟨_, decodeFedByte_end b⟩ (.inr le_rfl)
    · have : ¬ k ≤ 7 := by omega
      simp [decodeFedByte_full hk b, this]

theorem decode_feed_ok_iff (p : Params) (m : Mode) (k : Nat) (bytes : List Byte) :
    (∃ i, decode p (.feed m k) bytes = .ok i) ↔ bytes.length = 1 ∧ (m = .seeking ∨ k ≤ 7) := by
  match bytes with
  | [] => simp [decode]
  | [b] => simp [decodeFedByte_ok_iff]
  | _ :: _ :: _ => simp [decode]

/-! ### The decoder on a candidate (30_encoding R52, R53) -/

@[simp] theorem decode_inbound_frameBytes (p : Params) (f : WireFrame) :
    decode p .inbound (frameBytes f) = decodeCandidate p f := rfl

theorem frameOfBytes_of_length_ne {bs : List Byte} (h : bs.length ≠ 8) : frameOfBytes bs = none := by
  rw [Option.eq_none_iff_forall_ne_some]
  intro f hf
  exact h (frameOfBytes_some hf ▸ frameBytes_length f)

theorem decodeCandidate_ok_iff (p : Params) (f : WireFrame) :
    (∃ i, decodeCandidate p f = .ok i) ↔ p.Distinct := by
  by_cases hd : p.Distinct
  · refine iff_of_true ?_ hd
    rw [decodeCandidate, if_pos hd]
    cases decodeFrame f with
    | ok fr => exact ⟨_, rfl⟩
    | frameInvalid => exact ⟨_, rfl⟩
  · simp [decodeCandidate, hd]

theorem decode_inbound_ok_iff (p : Params) (bytes : List Byte) :
    (∃ i, decode p .inbound bytes = .ok i) ↔ bytes.length = 8 ∧ p.Distinct := by
  by_cases hlen : bytes.length = 8
  · obtain ⟨f, -, rfl⟩ := frameOfBytes_of_length hlen
    simp [decodeCandidate_ok_iff]
  · simp [decode, frameOfBytes_of_length_ne hlen, hlen]

/-- The five comparisons of command selection, in the dispatch table's order (30_encoding R53). -/
theorem selectCommand_eq (p : Params) (fr : Frame) :
    selectCommand p fr =
      if fr.command = p.cmdConfigTc then .configTc fr.payload fr.reserved
      else if fr.command = p.cmdSetPower then .setPower fr.payload fr.reserved
      else if fr.command = p.cmdAuto then .enableAuto fr.payload fr.reserved
      else if fr.command = p.cmdManual then .enableManual fr.payload fr.reserved
      else if fr.command = p.cmdShutdown then .shutdown fr.payload fr.reserved
      else .unrecognized fr.command fr.payload fr.reserved := by
  simp only [selectCommand, commandRows, List.find?_cons, eq_comm (a := fr.command), beq_eq_decide]
  split_ifs <;> simp [*]

/-- The row command selection names does what DISPATCH does: both take the first of the five codes that fits. -/
theorem exec_selectCommand (fr : Frame) (s : State) : exec (selectCommand s.params fr) s = dispatch fr s := by
  rw [selectCommand_eq, dispatch]
  split_ifs <;> rfl

/-- The row a candidate decodes to does what the end of its transaction does (41_assembler R73). -/
theorem exec_of_decodeCandidate {p : Params} {s : State} {f : WireFrame} {i : Instr} (hp : s.params = p)
    (h : decodeCandidate p f = .ok i) : exec i s = completeCandidate f s := by
  subst hp
  have hd := (decodeCandidate_ok_iff _ f).mp ⟨i, h⟩
  rw [decodeCandidate, if_pos hd] at h
  unfold completeCandidate
  cases hf : decodeFrame f with
  | ok fr =>
    rw [hf] at h
    cases h
    exact exec_selectCommand fr s
  | frameInvalid =>
    rw [hf] at h
    cases h
    rfl

/-! ### The decoder on WRITE (30_encoding R55) -/

@[simp] theorem decode_outbound_frameBytes (p : Params) (f : WireFrame) :
    decode p .outbound (frameBytes f) = decodeWritten p f := rfl

@[simp] theorem payloadByte_payloadWith (i : Fin 4) (v : Byte) : payloadByte (payloadWith i v) i = v := by
  match i with
  | 0 | 1 | 2 | 3 => rfl

/-- A frame that is one of the five acks has a row, whichever of them it fits first. -/
theorem decodeWritten_ok_of_ack {p : Params} {f : WireFrame}
    (h : f = ackConfigTc p (payloadByte f.payload p.tcAckIndex) ∨
      f = ackSetPower p (payloadByte f.payload Config.setPowerIndex) ∨
      f = ackAuto p ∨ f = ackManual p ∨ f = ackShutdown p) :
    ∃ j, decodeWritten p f = .ok j := by
  unfold decodeWritten
  split_ifs with h1 h2 h3 h4 h5
  · exact ⟨_, rfl⟩
  · exact ⟨_, rfl⟩
  · exact ⟨_, rfl⟩
  · exact ⟨_, rfl⟩
  · exact ⟨_, rfl⟩
  · simp only [h1, h2, h3, h4, h5, or_self] at h

theorem decode_outbound_of_encode {p : Params} {i : Instr} {bytes : List Byte} (he : encode p i = some bytes)
    (hs : siteFits .outbound i = true) : ∃ j, decode p .outbound bytes = .ok j := by
  cases i with
  | ackConfigTcFrame v =>
    cases he
    exact decodeWritten_ok_of_ack (.inl (congrArg (ackConfigTc p) (payloadByte_payloadWith p.tcAckIndex v).symm))
  | ackSetPowerFrame v =>
    cases he
    exact decodeWritten_ok_of_ack (.inr (.inl rfl))
  | ackAutoFrame =>
    cases he
    exact decodeWritten_ok_of_ack (.inr (.inr (.inl rfl)))
  | ackManualFrame =>
    cases he
    exact decodeWritten_ok_of_ack (.inr (.inr (.inr (.inl rfl))))
  | ackShutdownFrame =>
    cases he
    exact decodeWritten_ok_of_ack (.inr (.inr (.inr (.inr rfl))))
  | _ => cases hs

/-! ### The FEED rows (41_assembler R74 to R77) -/

theorem exec_feedNoise {s : State} {b : Byte} (hr : Ready s) (hm : s.mode = .seeking) (hb : b ≠ Config.marker) :
    exec (.feedNoise b) s = .next { s with outcomes := s.outcomes ++ [.noiseDiscarded] } := by
  rw [exec, execFeedNoise, feedGuard_of_ready hr, ifSelected_of_true ⟨hm, hb⟩, finish]

theorem exec_feedStart {s : State} (hr : Ready s) (hm : s.mode = .seeking) :
    exec .feedStart s = .next { s with
      mode := .accumulating, count := 1, buf := [Config.marker], outcomes := s.outcomes ++ [.frameStarted] } := by
  obtain ⟨hbuf, hcount⟩ := hr.2.2.2 hm
  have hroom : s.count < Config.frameSize := by rw [hcount]; decide
  rw [exec, execFeedStart, feedGuard_of_ready hr, ifSelected_of_true hm, withAppended_of_lt hroom, hbuf, hcount]
  rfl

theorem exec_feedData {s : State} (hr : Ready s) (hm : s.mode = .accumulating) (hc : s.count ≤ 6) (b : Byte) :
    exec (.feedData b) s = .next { s with
      count := s.count + 1, buf := s.buf ++ [b], outcomes := s.outcomes ++ [.byteAccumulated] } := by
  have hroom : s.count + 1 < Config.frameSize := by simp only [Config.frameSize]; omega
  rw [exec, execFeedData, feedGuard_of_ready hr, ifSelected_of_true ⟨hm, hroom⟩,
    withAppended_of_lt (Nat.lt_of_succ_lt hroom), finish]

/-- FEED_END on a full candidate is the end of that candidate's transaction, from SEEKING. -/
theorem exec_feedEnd {s : State} (hr : Ready s) (hm : s.mode = .accumulating) (hc : s.count = 7) {b : Byte}
    {cand : WireFrame} (hcand : frameOfBytes (s.buf ++ [b]) = some cand) :
    exec (.feedEnd b) s = completeCandidate cand { s with mode := .seeking, count := 0, buf := [] } := by
  obtain ⟨cand', hf, -, he⟩ := execFeedEnd_eq hr hm hc b
  cases hcand.symm.trans hf
  exact he

/-- FEED_END with the candidate's events and outcome put out. -/
theorem exec_feedEnd_eq {s : State} (hr : Ready s) (hm : s.mode = .accumulating) (hc : s.count = 7) {b : Byte}
    {cand : WireFrame} (hcand : frameOfBytes (s.buf ++ [b]) = some cand) :
    exec (.feedEnd b) s = .next { s with
      mode := .seeking, count := 0, buf := [],
      events := s.events ++ (candidateSpec s.params cand).1,
      outcomes := s.outcomes ++ [(candidateSpec s.params cand).2] } :=
  (exec_feedEnd hr hm hc hcand).trans
    (completeCandidate_eq (s := { s with mode := .seeking, count := 0, buf := [] }) hr.1 cand)

/-! ### One step -/

/-- A step is exec of the row the oldest waiting byte decodes to. -/
theorem step_eq_exec {s : State} {b : Byte} {rest : List Byte} {i : Instr} (hr : Ready s) (hin : s.input = b :: rest)
    (hd : decode s.params (.feed s.mode s.count) [b] = .ok i) : step s = exec i { s with input := rest } :=
  step_eq_of_fetch hr (by rw [fetch_cons hin, hd])

theorem step_of_idle {s : State} (hr : Ready s) (hin : s.input = []) : step s = .next s := by
  rw [step, feedGuard_of_ready hr, fetch_nil hin]

theorem step_of_full {s : State} {b : Byte} {rest : List Byte} (hr : Ready s) (hin : s.input = b :: rest)
    (hm : s.mode = .accumulating) (hc : 8 ≤ s.count) : step s = .fault .bufferFull := by
  rw [step, feedGuard_of_ready hr, fetch_cons hin, hm, decode_feed_singleton, decodeFedByte_full hc]
  rfl

/-! The four cases of R73's pseudocode. -/

theorem feedSpec_noise {b : Byte} (hb : b ≠ Config.marker) (p : Params) (k : Nat) (buf : List Byte) :
    feedSpec p ⟨.seeking, k, buf⟩ b = (⟨.seeking, k, buf⟩, [], .noiseDiscarded) := if_pos hb

theorem feedSpec_marker (p : Params) (k : Nat) (buf : List Byte) :
    feedSpec p ⟨.seeking, k, buf⟩ Config.marker = (⟨.accumulating, 1, [Config.marker]⟩, [], .frameStarted) := rfl

theorem feedSpec_data {k : Nat} (hk : k ≤ 6) (p : Params) (buf : List Byte) (b : Byte) :
    feedSpec p ⟨.accumulating, k, buf⟩ b = (⟨.accumulating, k + 1, buf ++ [b]⟩, [], .byteAccumulated) :=
  if_pos (by simp only [Config.frameSize]; omega)

theorem feedSpec_end {buf : List Byte} {b : Byte} {cand : WireFrame} (hf : frameOfBytes (buf ++ [b]) = some cand)
    (p : Params) : feedSpec p ⟨.accumulating, 7, buf⟩ b = (resetRegisters, candidateSpec p cand) := by
  have hfull : ¬ 7 + 1 < Config.frameSize := by decide
  simp only [feedSpec, if_neg hfull, hf]

/-- The state after a FEED transaction with these registers, events and outcome, the bytes in `rest` still waiting. -/
def afterFeed (s : State) (rest : List Byte) (out : Registers × List Event × FeedOutcome) : State :=
  { s with
    mode := out.1.mode, count := out.1.count, buf := out.1.buf, input := rest,
    events := s.events ++ out.2.1, outcomes := s.outcomes ++ [out.2.2] }

/-- One step is the FEED transaction of R73's pseudocode, wherever that is defined. -/
theorem step_eq_afterFeed {s : State} {b : Byte} {rest : List Byte} (hr : Ready s) (hc : s.count ≤ 7)
    (hin : s.input = b :: rest) : step s = .next (afterFeed s rest (feedSpec s.params (registers s) b)) := by
  have hr' : Ready { s with input := rest } := hr
  have hrow : ∀ {i}, decodeFedByte s.mode s.count b = .ok i → step s = exec i { s with input := rest } :=
    step_eq_exec hr hin
  cases hm : s.mode with
  | seeking =>
    by_cases hb : b = Config.marker
    · subst hb
      rw [hrow (hm ▸ decodeFedByte_marker _), exec_feedStart hr' hm, registers, hm, feedSpec_marker]
      simp [afterFeed]
    · rw [hrow (hm ▸ decodeFedByte_noise hb _), exec_feedNoise hr' hm hb, registers, hm, feedSpec_noise hb]
      simp [afterFeed]
  | accumulating =>
    rcases Nat.lt_or_eq_of_le hc with hlt | h7
    · have hc6 : s.count ≤ 6 := Nat.le_of_lt_succ hlt
      rw [hrow (hm ▸ decodeFedByte_data hc6 b), exec_feedData hr' hm hc6, registers, hm, feedSpec_data hc6]
      simp [afterFeed]
    · obtain ⟨cand, hf, -⟩ := execFeedEnd_eq hr hm h7 b
      rw [hrow (hm ▸ h7 ▸ decodeFedByte_end b), exec_feedEnd_eq hr' hm h7 hf, registers, hm, h7, feedSpec_end hf]
      rfl

/-- Under distinct request codes no step is refused for the codes. -/
theorem step_ne_codesNotDistinct {s : State} (hd : s.params.Distinct) : step s ≠ .refused .codesNotDistinct := by
  by_cases hi : RegInv s
  · have hr : Ready s := ⟨hd, hi⟩
    cases hin : s.input with
    | nil => rw [step_of_idle hr hin]; nofun
    | cons b rest =>
      by_cases hc : s.count ≤ 7
      · rw [step_eq_afterFeed hr hc hin]; nofun
      · have hm : s.mode = .accumulating := by
          cases hm : s.mode with
          | seeking => exact absurd (hi.2.2 hm).2 (by omega)
          | accumulating => rfl
        rw [step_of_full hr hin hm (by omega)]; nofun
  · rw [step, feedGuard_of_not_inv hd hi]; nofun

/-! ### Table words -/

theorem placeTableWord_byte (w : Nat) (s : State) :
    placeTableWord 8 w s =
      { s with mode := .seeking, count := 0, buf := [], input := BitVec.ofNat 8 w :: s.input } := rfl

theorem placeTableWord_frame (w : Nat) (s : State) :
    placeTableWord 64 w s =
      { s with mode := .accumulating, count := 7, buf := frameHead (frameOfWord w),
               input := (frameOfWord w).checksum :: s.input } := rfl

theorem ready_placeTableWord_byte {s : State} (hd : s.params.Distinct) (w : Nat) : Ready (placeTableWord 8 w s) := by
  rw [placeTableWord_byte]
  exact ⟨hd, rfl, Nat.zero_le _, fun _ => ⟨rfl, rfl⟩⟩

theorem ready_placeTableWord_frame {s : State} (hd : s.params.Distinct) (w : Nat) :
    Ready (placeTableWord 64 w s) := by
  rw [placeTableWord_frame]
  exact ⟨hd, rfl, Nat.le_succ 7, nofun⟩

theorem decodeTableWord_byte_some {w : Nat} {i : Instr} (h : decodeTableWord 8 w = some i) :
    decodeFedByte .seeking 0 (BitVec.ofNat 8 w) = .ok i := by
  simp only [decodeTableWord, if_true, decode_feed_singleton] at h
  split at h
  · cases h; assumption
  · cases h

theorem decodeTableWord_frame_some {w : Nat} {i : Instr} (h : decodeTableWord 64 w = some i) :
    decodeCandidate Config.tieOff (frameOfWord w) = .ok i := by
  simp only [decodeTableWord, Nat.reduceEqDiff, if_true, if_false, decode_inbound_frameBytes] at h
  split at h
  · cases h; assumption
  · cases h

/-! ### The statements of 00_scope -/

/-- Settles O5: the guard refuses equal codes, and no branch behind it answers that refusal. -/
theorem equalRequestCodesAreRefused : Obligations.EqualRequestCodesAreRefused := by
  intro s
  rw [← distinct_iff]
  exact ⟨fun h hd => step_ne_codesNotDistinct hd h, fun h => feedGuard_of_not_distinct h _⟩

/-- Settles O33, place by place. -/
theorem decoderAnswersEveryByteString : Obligations.DecoderAnswersEveryByteString := fun p bytes =>
  ⟨fun m k => decode_feed_ok_iff p m k bytes, decode_inbound_ok_iff p bytes,
    fun _ he hs => decode_outbound_of_encode he hs⟩

/-- Settles O37: a byte is decoded by the step itself, a frame at the end of its candidate. -/
theorem tableWordsRunAsDecoded : Obligations.TableWordsRunAsDecoded := by
  intro s w i hp
  have hd : s.params.Distinct := by rw [hp]; decide
  constructor
  · intro h
    exact step_eq_exec (ready_placeTableWord_byte hd w) rfl (decodeTableWord_byte_some h)
  · intro h
    have hready : Ready (placeTableWord 64 w s) := ready_placeTableWord_frame hd w
    calc step (placeTableWord 64 w s)
      _ = exec (.feedEnd (frameOfWord w).checksum) { placeTableWord 64 w s with input := s.input } :=
        step_eq_exec hready rfl (decodeFedByte_end _)
      _ = completeCandidate (frameOfWord w) { s with mode := .seeking, count := 0, buf := [] } :=
        exec_feedEnd (s := { placeTableWord 64 w s with input := s.input }) hready rfl rfl
          (frameOfBytes_frameBytes (frameOfWord w))
      _ = exec i { s with mode := .seeking, count := 0, buf := [] } :=
        Eq.symm (exec_of_decodeCandidate hp (decodeTableWord_frame_some h))

/-- Settles O38: the four cases of the pseudocode are the four FEED rows. -/
theorem stepIsTheFeedTransaction : Obligations.StepIsTheFeedTransaction := fun _ _ _ hr hc hin =>
  ⟨_, _, _, rfl, step_eq_afterFeed hr hc hin⟩

/-- Settles O6: on a ready state the guard lets the decoded row run. -/
theorem stepRunsTheDecodedRow : Obligations.StepRunsTheDecodedRow := fun _ _ _ _ hr hin hd =>
  step_eq_exec hr hin hd

/-- Settles O22: a FEED row is behind both guards, the other rows with parameters behind the first. -/
theorem dispatchRefusesEqualRequestCodes : Obligations.DispatchRefusesEqualRequestCodes := by
  intro s i hd hchecksum hencode hdecode
  cases i with
  | checksum bytes n => exact absurd rfl (hchecksum bytes n)
  | encode command payload => exact absurd rfl (hencode command payload)
  | decode f => exact absurd rfl (hdecode f)
  | feedNoise | feedStart | feedData | feedEnd => exact feedGuard_of_not_distinct hd _
  | _ => exact ifConfigured_of_not_distinct hd _

end Sys2Proof.Machine

/-! ## The state between transactions

A step that answers a next state is idle or one FEED transaction of R73's pseudocode, and so what a step keeps of the
registers is what `feedSpec` keeps; the statements of 10_state are short uses of this. -/

namespace Sys2Proof.Machine

/-! ### The shape of R24 -/

theorem boundary_resetWith (p : Params) : Boundary (State.resetWith p) := .inl ⟨rfl, rfl, rfl⟩

theorem count_le_seven_of_boundary {s : State} (h : Boundary s) : s.count ≤ 7 := by
  obtain ⟨-, hcount, -⟩ | ⟨-, -, hcount, -⟩ := h
  · rw [hcount]; exact Nat.zero_le 7
  · exact hcount

theorem regInv_of_boundary {s : State} (h : Boundary s) : RegInv s := by
  have hbound : IBound s := (count_le_seven_of_boundary h).trans (Nat.le_succ 7)
  obtain ⟨-, hcount, hbuf⟩ | ⟨hmode, -, -, hlen, -⟩ := h
  · exact ⟨by rw [ILen, hcount, hbuf, List.length_nil], hbound, fun _ => ⟨hbuf, hcount⟩⟩
  · exact ⟨hlen.symm, hbound, fun hseek => nomatch hmode.symm.trans hseek⟩

theorem seeking_iff_count_zero_of_boundary {s : State} (h : Boundary s) : s.mode = .seeking ↔ s.count = 0 := by
  obtain ⟨hmode, hcount, -⟩ | ⟨hmode, hpos, -⟩ := h
  · exact iff_of_true hmode hcount
  · exact iff_of_false (by rw [hmode]; nofun) (Nat.ne_zero_of_lt hpos)

/-! ### What one step can do -/

/-- A step that answers a next state is idle, or is the FEED transaction of the oldest waiting byte. -/
theorem step_next_feed_cases {s t : State} (h : step s = .next t) :
    Ready s ∧ ((s.input = [] ∧ t = s) ∨
      ∃ b rest, s.input = b :: rest ∧ s.count ≤ 7 ∧ t = afterFeed s rest (feedSpec s.params (registers s) b)) := by
  obtain ⟨hr, hidle | ⟨b, rest, i, hin, hd, -⟩⟩ := step_next_cases h
  · exact ⟨hr, .inl hidle⟩
  · have hcount : s.count ≤ 7 := by
      obtain ⟨-, -, -, hzero⟩ := hr
      obtain ⟨-, hseek | hcount⟩ := (decode_feed_ok_iff ..).mp ⟨i, hd⟩
      · rw [(hzero hseek).2]; exact Nat.zero_le 7
      · exact hcount
    rw [step_eq_afterFeed hr hcount hin, Host.Outcome.next.injEq] at h
    exact ⟨hr, .inr ⟨b, rest, hin, hcount, h.symm⟩⟩

theorem step_keeps_params {s t : State} (h : step s = .next t) : t.params = s.params := by
  obtain ⟨-, ⟨-, rfl⟩ | ⟨b, rest, -, -, rfl⟩⟩ := step_next_feed_cases h
  · rfl
  · rfl

/-- The FEED transaction keeps the shape of R24: noise leaves it, the marker begins it, a byte with room grows it behind
the marker, and the eighth byte returns the registers. -/
theorem afterFeed_keeps_boundary {s : State} (h : Boundary s) (rest : List Byte) (b : Byte) :
    Boundary (afterFeed s rest (feedSpec s.params (registers s) b)) := by
  obtain ⟨hmode, hcount, hbuf⟩ | ⟨hmode, -, hcount, hlen, hhead⟩ := h
  · rw [registers, hmode, hcount, hbuf]
    by_cases hb : b = Config.marker
    · rw [hb, feedSpec_marker]
      exact .inr ⟨rfl, le_rfl, Nat.le_add_left 1 6, rfl, rfl⟩
    · rw [feedSpec_noise hb]
      exact .inl ⟨rfl, rfl, rfl⟩
  · rw [registers, hmode]
    rcases Nat.lt_or_eq_of_le hcount with hlt | h7
    · rw [feedSpec_data (Nat.le_of_lt_succ hlt)]
      exact .inr ⟨rfl, Nat.le_add_left 1 _, hlt, by simp [afterFeed, hlen], by simp [afterFeed, hhead]⟩
    · obtain ⟨cand, hcand, -⟩ := frameOfBytes_of_length (bs := s.buf ++ [b]) (by simp [hlen, h7])
      rw [h7, feedSpec_end hcand]
      exact .inl ⟨rfl, rfl, rfl⟩

theorem step_keeps_boundary {s t : State} (hb : Boundary s) (h : step s = .next t) : Boundary t := by
  obtain ⟨-, ⟨-, rfl⟩ | ⟨b, rest, -, -, rfl⟩⟩ := step_next_feed_cases h
  · exact hb
  · exact afterFeed_keeps_boundary hb rest b

/-! ### The reachable states -/

theorem boundary_of_reachable {p : Params} {s : State} (h : Reachable p s) : Boundary s := by
  induction h with
  | reset => exact boundary_resetWith p
  | delivered bs _ ih => exact ih
  | stepped _ hstep ih => exact step_keeps_boundary ih hstep

theorem params_of_reachable {p : Params} {s : State} (h : Reachable p s) : s.params = p := by
  induction h with
  | reset => rfl
  | delivered bs _ ih => exact ih
  | stepped _ hstep ih => exact (step_keeps_params hstep).trans ih

theorem ready_of_reachable {p : Params} {s : State} (hd : p.Distinct) (h : Reachable p s) : Ready s :=
  ⟨params_of_reachable h ▸ hd, regInv_of_boundary (boundary_of_reachable h)⟩

/-- One byte delivered to a reachable block with nothing waiting, and fed. -/
theorem reachable_feed {p : Params} {s : State} (hd : p.Distinct) (h : Reachable p s) (hin : s.input = []) (b : Byte) :
    ∃ t, Reachable p t ∧ registers t = (feedSpec p (registers s) b).1 ∧ t.input = [] := by
  have hdel : Reachable p (deliver [b] s) := .delivered [b] h
  have hstep := step_eq_afterFeed (ready_of_reachable hd hdel)
    (count_le_seven_of_boundary (boundary_of_reachable hdel)) (b := b) (rest := []) (by rw [deliver_input, hin]; rfl)
  refine ⟨_, .stepped hdel hstep, ?_, rfl⟩
  rw [params_of_reachable hdel]
  rfl

/-! ### The codec rows -/

/-- A row that stands at no place is a codec row; one that answers a next state writes only the result it returns, and
returns it from every state. -/
theorem exec_codecRow_next {s t : State} {i : Instr} (hi : ∀ site, siteFits site i = false) (h : exec i s = .next t) :
    ∃ r, t = codecReturn r s ∧ ∀ u, exec i u = .next (codecReturn r u) := by
  cases i with
  | checksum bytes n =>
    by_cases hn : n ≤ bytes.length
    · rw [exec, execChecksum, if_pos hn] at h
      cases h
      exact ⟨_, rfl, fun _ => if_pos hn⟩
    · rw [exec, execChecksum, if_neg hn] at h
      cases h
  | encode command payload =>
    cases h
    exact ⟨_, rfl, fun _ => rfl⟩
  | decode f =>
    cases h
    exact ⟨_, rfl, fun _ => rfl⟩
  | feedNoise | feedStart => cases hi (.feed .seeking 0)
  | feedData => cases hi (.feed .accumulating 0)
  | feedEnd => cases hi (.feed .accumulating 7)
  | ackConfigTcFrame | ackSetPowerFrame | ackAutoFrame | ackManualFrame | ackShutdownFrame => cases hi .outbound
  | configTc | setPower | enableAuto | enableManual | shutdown | unrecognized | frameInvalid => cases hi .inbound

/-! ### The statements of 10_state -/

/-- Settles O3: every step keeps the boundary shape, and so every reachable state has it. -/
theorem stepKeepsTheBoundaryShape : Obligations.StepKeepsTheBoundaryShape := by
  refine ⟨fun s t => step_keeps_boundary, fun p s h => ?_⟩
  have hb := boundary_of_reachable h
  have hcount := count_le_seven_of_boundary hb
  refine ⟨?_, seeking_iff_count_zero_of_boundary hb, by omega⟩
  rw [← List.head?_eq_getElem?]
  exact hb

/-- Settles O43: a codec row's one effect is the result it returns, which no state bears on. -/
theorem frameOfTheCodecRows : Obligations.FrameOfTheCodecRows := by
  intro s s' i hi
  constructor
  · intro t h
    obtain ⟨r, rfl, -⟩ := exec_codecRow_next hi h
    rfl
  · intro t h
    obtain ⟨r, rfl, hexec⟩ := exec_codecRow_next hi h
    exact ⟨_, hexec s', rfl⟩

/-- Settles O44: what a transaction adds is a function of the parameters, the registers and the byte. -/
theorem outputsAreNotReadBack : Obligations.OutputsAreNotReadBack := by
  intro s t es os r h
  obtain ⟨hr, ⟨hin, rfl⟩ | ⟨b, rest, hin, hcount, rfl⟩⟩ := step_next_feed_cases h
  · refine ⟨[], [], (List.append_nil _).symm, (List.append_nil _).symm, ?_⟩
    rw [List.append_nil, List.append_nil]
    exact step_of_idle hr hin
  · exact ⟨_, _, rfl, rfl,
      step_eq_afterFeed (s := { s with events := es, outcomes := os, codecResult := r }) hr hcount hin⟩

/-- Settles O55, byte by byte: the marker from reset, then each byte appended behind it. -/
theorem everyBoundaryStateIsReachable : Obligations.EveryBoundaryStateIsReachable := by
  intro p after hd
  induction after using List.reverseRecOn with
  | nil => exact fun _ => reachable_feed hd .reset rfl Config.marker
  | append_singleton bs b ih =>
    intro hlen
    rw [List.length_append, List.length_singleton] at hlen
    obtain ⟨s, hreach, hregs, hin⟩ := ih (Nat.le_of_succ_le hlen)
    obtain ⟨t, htreach, htregs, htin⟩ := reachable_feed hd hreach hin b
    rw [hregs, feedSpec_data hlen] at htregs
    exact ⟨t, htreach, by rw [htregs, List.length_append]; rfl, htin⟩

/-- Settles O2: the reset state is the SEEKING case of R24, which implies the invariants. -/
theorem resetMeetsTheInvariants : Obligations.ResetMeetsTheInvariants := fun p =>
  ⟨regInv_of_boundary (boundary_resetWith p), boundary_resetWith p⟩

end Sys2Proof.Machine

/-! ## The order of bytes and events

A transaction adds one outcome and exactly the events that outcome explains, so the event trace stays accounted for, and
what an accounted trace has written is read off it outcome by outcome; the statements of 20_memory are short uses of
this. -/

namespace Sys2Proof.Machine

/-! ### A step on a waiting byte -/

/-- With a byte waiting, a step that answers a next state is that byte's FEED transaction. -/
theorem step_next_of_waiting {s t : State} {b : Byte} {rest : List Byte} (hin : s.input = b :: rest)
    (h : step s = .next t) : s.count ≤ 7 ∧ t = afterFeed s rest (feedSpec s.params (registers s) b) := by
  obtain ⟨-, ⟨hidle, -⟩ | ⟨b', rest', hin', hcount, ht⟩⟩ := step_next_feed_cases h
  · cases hidle.symm.trans hin
  · cases hin'.symm.trans hin
    exact ⟨hcount, ht⟩

/-! ### The events an outcome explains (60_exceptions R101) -/

@[simp] theorem writtenFrames_nil : writtenFrames [] = [] := rfl

@[simp] theorem writtenFrames_cons_write (f : WireFrame) (es : List Event) :
    writtenFrames (.write f :: es) = f :: writtenFrames es := rfl

@[simp] theorem writtenFrames_append (es fs : List Event) :
    writtenFrames (es ++ fs) = writtenFrames es ++ writtenFrames fs := List.filterMap_append

/-- 40_codec R68: the encoder puts the marker and the checksum itself. -/
theorem valid_encodeFrame (c : Byte) (payload : Payload) : Valid (encodeFrame c payload) := ⟨rfl, rfl⟩

/-- An outcome comes either with no event, and is no dispatch, or with one encoded frame written last, and is one. -/
theorem outcomeExplains_cases {p : Params} {o : FeedOutcome} {es : List Event} (h : outcomeExplains p o es = true) :
    (es = [] ∧ outcomeWidth o = 0 ∧ outcomeIsDispatch o = false) ∨
    ∃ acts c payload, es = acts ++ [.write (encodeFrame c payload)] ∧ writtenFrames acts = [] ∧
      outcomeWidth o = acts.length + 1 ∧ outcomeIsDispatch o = true := by
  unfold outcomeExplains at h
  split at h
  case h_6 v f => exact .inr ⟨[.setTc v], _, _, by rw [of_decide_eq_true h]; rfl, rfl, rfl, rfl⟩
  case h_7 v f => exact .inr ⟨[.setPower v], _, _, by rw [of_decide_eq_true h]; rfl, rfl, rfl, rfl⟩
  case h_8 f | h_9 f | h_10 f => exact .inr ⟨[], _, _, by rw [of_decide_eq_true h]; rfl, rfl, rfl, rfl⟩
  case h_11 => cases h
  all_goals exact .inl ⟨rfl, rfl, rfl⟩

theorem length_of_outcomeExplains {p : Params} {o : FeedOutcome} {es : List Event}
    (h : outcomeExplains p o es = true) : es.length = outcomeWidth o := by
  obtain ⟨rfl, hw, -⟩ | ⟨acts, c, payload, rfl, -, hw, -⟩ := outcomeExplains_cases h
  · exact hw.symm
  · rw [hw, List.length_append, List.length_singleton]

/-! ### What a transaction adds is explained by its outcome -/

theorem dispatchSpec_explained (p : Params) (fr : Frame) :
    outcomeExplains p (dispatchSpec p fr).2 (dispatchSpec p fr).1 = true := by
  unfold dispatchSpec
  split_ifs
  case neg => rfl
  all_goals exact decide_eq_true rfl

theorem candidateSpec_explained (p : Params) (cand : WireFrame) :
    outcomeExplains p (candidateSpec p cand).2 (candidateSpec p cand).1 = true := by
  unfold candidateSpec
  cases decodeFrame cand with
  | frameInvalid => rfl
  | ok fr => exact dispatchSpec_explained p fr

theorem feedSpec_explained (p : Params) (r : Registers) (b : Byte) :
    outcomeExplains p (feedSpec p r b).2.2 (feedSpec p r b).2.1 = true := by
  unfold feedSpec
  split
  · split <;> rfl
  · split
    · rfl
    · split
      · exact candidateSpec_explained p _
      · rfl

/-! ### The accounted trace (20_memory R42, 42_dispatcher R86, R98) -/

theorem traceAccounted_nil (p : Params) (es : List Event) : traceAccounted p [] es = true ↔ es = [] :=
  List.isEmpty_iff

/-- The trace begins with what the first outcome explains, and the rest is accounted for by the rest. -/
theorem traceAccounted_cons (p : Params) (o : FeedOutcome) (os : List FeedOutcome) (es : List Event) :
    traceAccounted p (o :: os) es = true ↔
      ∃ es1 es2, es = es1 ++ es2 ∧ outcomeExplains p o es1 = true ∧ traceAccounted p os es2 = true := by
  rw [traceAccounted, Bool.and_eq_true]
  constructor
  · rintro ⟨hfirst, hrest⟩
    exact ⟨_, _, (List.take_append_drop ..).symm, hfirst, hrest⟩
  · rintro ⟨es1, es2, rfl, hfirst, hrest⟩
    rw [← length_of_outcomeExplains hfirst, List.take_left, List.drop_left]
    exact ⟨hfirst, hrest⟩

/-- One outcome more, with the events it explains. -/
theorem traceAccounted_snoc {p : Params} {o : FeedOutcome} {new : List Event} (hnew : outcomeExplains p o new = true)
    {os : List FeedOutcome} {es : List Event} (h : traceAccounted p os es = true) :
    traceAccounted p (os ++ [o]) (es ++ new) = true := by
  induction os generalizing es with
  | nil =>
    rw [traceAccounted_nil] at h
    rw [h]
    exact (traceAccounted_cons ..).mpr ⟨new, [], (List.append_nil _).symm, hnew, rfl⟩
  | cons o' os ih =>
    obtain ⟨es1, es2, rfl, hfirst, hrest⟩ := (traceAccounted_cons ..).mp h
    exact (traceAccounted_cons ..).mpr ⟨es1, es2 ++ new, List.append_assoc .., hfirst, ih hrest⟩

/-- An accounted trace has one frame written for each dispatch outcome. -/
theorem writtenFrames_length_of_traceAccounted {p : Params} {os : List FeedOutcome} {es : List Event}
    (h : traceAccounted p os es = true) : (writtenFrames es).length = os.countP outcomeIsDispatch := by
  induction os generalizing es with
  | nil => rw [(traceAccounted_nil ..).mp h]; rfl
  | cons o os ih =>
    obtain ⟨es1, es2, rfl, hfirst, hrest⟩ := (traceAccounted_cons ..).mp h
    obtain ⟨rfl, -, hd⟩ | ⟨acts, c, payload, rfl, hacts, -, hd⟩ := outcomeExplains_cases hfirst
    · simp [ih hrest, hd]
    · simp [ih hrest, hd, hacts]

/-- Every frame an accounted trace has written is one the codec encoded. -/
theorem mem_writtenFrames_of_traceAccounted {p : Params} {os : List FeedOutcome} {es : List Event}
    (h : traceAccounted p os es = true) {f : WireFrame} (hf : f ∈ writtenFrames es) :
    ∃ c payload, f = encodeFrame c payload := by
  induction os generalizing es with
  | nil => rw [(traceAccounted_nil ..).mp h] at hf; cases hf
  | cons o os ih =>
    obtain ⟨es1, es2, rfl, hfirst, hrest⟩ := (traceAccounted_cons ..).mp h
    rw [writtenFrames_append, List.mem_append] at hf
    obtain hf | hf := hf
    · obtain ⟨rfl, -, -⟩ | ⟨acts, c, payload, rfl, hacts, -, -⟩ := outcomeExplains_cases hfirst
      · cases hf
      · exact ⟨c, payload, by simpa [hacts] using hf⟩
    · exact ih hrest hf

theorem step_keeps_traceAccounted {s t : State} (h : traceAccounted s.params s.outcomes s.events = true)
    (hstep : step s = .next t) : traceAccounted t.params t.outcomes t.events = true := by
  obtain ⟨-, ⟨-, rfl⟩ | ⟨b, rest, -, -, rfl⟩⟩ := step_next_feed_cases hstep
  · exact h
  · exact traceAccounted_snoc (feedSpec_explained ..) h

theorem traceAccounted_of_reachable {p : Params} {s : State} (h : Reachable p s) :
    traceAccounted s.params s.outcomes s.events = true := by
  induction h with
  | reset => rfl
  | delivered bs _ ih => exact ih
  | stepped _ hstep ih => exact step_keeps_traceAccounted ih hstep

/-! ### The statements of 20_memory -/

/-- Settles O40: a step adds an outcome and the events it explains, and an accounted trace gives what was written. -/
theorem eventTraceIsAccountedFor : Obligations.EventTraceIsAccountedFor := by
  refine ⟨fun s t => step_keeps_traceAccounted, fun p s h => ?_⟩
  have hacc := traceAccounted_of_reachable h
  refine ⟨params_of_reachable h, params_of_reachable h ▸ hacc, writtenFrames_length_of_traceAccounted hacc, ?_⟩
  intro f hf
  obtain ⟨c, payload, rfl⟩ := mem_writtenFrames_of_traceAccounted hacc hf
  exact ⟨valid_encodeFrame c payload, rfl⟩

/-- Settles O46: the marker makes count 1, a byte with room adds 1, and the eighth byte takes it from 7 to 0. -/
theorem onlyNoiseIsIdempotent : Obligations.OnlyNoiseIsIdempotent := by
  intro s t b rest hb hin h
  obtain ⟨-, rfl⟩ := step_next_of_waiting hin h
  constructor
  · rintro ⟨hmode, hnoise⟩
    have hregs : registers s = ⟨.seeking, s.count, s.buf⟩ := by rw [registers, hmode]
    rw [hregs, feedSpec_noise hnoise]
    exact ⟨rfl, List.append_nil _⟩
  · intro hother
    obtain ⟨hmode, hcount, -⟩ | ⟨hmode, -, hcount, hlen, -⟩ := hb
    · have hmarker : b = Config.marker := not_not.mp fun hne => hother ⟨hmode, hne⟩
      rw [registers, hmode, hmarker, feedSpec_marker, hcount]
      exact Nat.one_ne_zero
    · rw [registers, hmode]
      rcases Nat.lt_or_eq_of_le hcount with hlt | h7
      · rw [feedSpec_data (Nat.le_of_lt_succ hlt)]
        exact Nat.succ_ne_self _
      · obtain ⟨cand, hcand, -⟩ := frameOfBytes_of_length (bs := s.buf ++ [b]) (by simp [hlen, h7])
        rw [h7, feedSpec_end hcand]
        exact (Nat.succ_ne_zero 6).symm

/-- Settles O54, by induction on the number of steps: each takes the oldest byte and adds one outcome behind the rest. -/
theorem bytesAreFedInOrder : Obligations.BytesAreFedInOrder := by
  intro k
  induction k with
  | zero =>
    intro s t _ h
    cases h
    exact ⟨rfl, rfl, List.prefix_rfl, List.prefix_rfl, rfl⟩
  | succ k ih =>
    intro s t hk h
    obtain ⟨u, hstep, hrun⟩ := runSteps_succ_next h
    obtain ⟨b, rest, hin⟩ := List.exists_cons_of_length_pos (Nat.zero_lt_of_lt hk)
    obtain ⟨-, rfl⟩ := step_next_of_waiting hin hstep
    rw [hin, List.length_cons, Nat.succ_le_succ_iff] at hk
    obtain ⟨hinput, hlen, hevents, houtcomes, hparams⟩ := ih _ t hk hrun
    refine ⟨by rw [hin]; exact hinput, ?_, (List.prefix_append ..).trans hevents,
      (List.prefix_append ..).trans houtcomes, hparams⟩
    rw [hlen, afterFeed, List.length_append, List.length_singleton]
    omega

/-- Settles O9: eight bytes held leave the fed byte no row. -/
theorem appendToAFullBufferFaults : Obligations.AppendToAFullBufferFaults := fun _ _ _ hr hm hc hin =>
  step_of_full hr hin hm hc.ge

end Sys2Proof.Machine

/-! ## The encoding

A row and its bytes determine each other at every place: the dispatch table is read by membership, a valid frame is the one
`validFrame` builds from its three free fields, and the ack frames are told apart by their codes; the statements of
30_encoding are short uses of this. -/

namespace Sys2Proof.Machine

/-! ### The dispatch table (30_encoding R53) -/

theorem map_fst_commandRows (p : Params) : (commandRows p).map Prod.fst = p.requestCodes := rfl

theorem mem_commandRows (p : Params) :
    (p.cmdConfigTc, Instr.configTc) ∈ commandRows p ∧ (p.cmdSetPower, Instr.setPower) ∈ commandRows p ∧
    (p.cmdAuto, Instr.enableAuto) ∈ commandRows p ∧ (p.cmdManual, Instr.enableManual) ∈ commandRows p ∧
    (p.cmdShutdown, Instr.shutdown) ∈ commandRows p := by
  simp [commandRows]

/-- Where no key occurs twice, the search for an entry's key finds that entry. -/
theorem find?_fst_of_mem {β : Type} {l : List (Byte × β)} (hnodup : (l.map Prod.fst).Nodup) {row : Byte × β}
    (hrow : row ∈ l) : l.find? (fun r => r.1 == row.1) = some row := by
  induction l with
  | nil => cases hrow
  | cons r l ih =>
    rw [List.map_cons, List.nodup_cons] at hnodup
    obtain ⟨hfresh, hnodup⟩ := hnodup
    obtain rfl | hrow := List.mem_cons.mp hrow
    · exact List.find?_cons_of_pos (beq_self_eq_true _)
    · have hne : r.1 ≠ row.1 := fun h => hfresh (h ▸ List.mem_map_of_mem hrow)
      rw [List.find?_cons_of_neg (by simpa using hne), ih hnodup hrow]

/-- Under distinct request codes each row of the table is selected by its own code. -/
theorem selectCommand_of_mem {p : Params} (hd : p.Distinct) {row : Byte × (Payload → Byte → Instr)}
    (hrow : row ∈ commandRows p) {fr : Frame} (hc : fr.command = row.1) :
    selectCommand p fr = row.2 fr.payload fr.reserved := by
  rw [selectCommand, hc, find?_fst_of_mem (map_fst_commandRows p ▸ hd) hrow]

theorem selectCommand_of_not_mem {p : Params} {fr : Frame} (hc : fr.command ∉ p.requestCodes) :
    selectCommand p fr = .unrecognized fr.command fr.payload fr.reserved := by
  have hnone : (commandRows p).find? (fun row => row.1 == fr.command) = none := by
    rw [List.find?_eq_none]
    intro row hrow heq
    exact hc (eq_of_beq heq ▸ List.mem_map_of_mem hrow)
  rw [selectCommand, hnone]

/-- A row of the table admits every operand, stands at an inbound candidate's place, and is encoded under its own code. -/
theorem encode_of_mem_commandRows {p : Params} {row : Byte × (Payload → Byte → Instr)} (hrow : row ∈ commandRows p)
    (payload : Payload) (reserved : Byte) :
    wellFormed p (row.2 payload reserved) = true ∧ siteFits .inbound (row.2 payload reserved) = true ∧
      encode p (row.2 payload reserved) = some (frameBytes (validFrame row.1 payload reserved)) := by
  simp only [commandRows, List.mem_cons, List.not_mem_nil, or_false] at hrow
  obtain rfl | rfl | rfl | rfl | rfl := hrow
  all_goals exact ⟨rfl, rfl, rfl⟩

/-! ### Candidates (30_encoding R52, R53) -/

theorem valid_validFrame (c : Byte) (payload : Payload) (reserved : Byte) : Valid (validFrame c payload reserved) :=
  ⟨rfl, rfl⟩

/-- R52 fixes the marker and the checksum of a valid frame and leaves the other three fields free. -/
theorem validFrame_of_valid {f : WireFrame} (h : Valid f) : validFrame f.command f.payload f.reserved = f := by
  obtain ⟨m, c, payload, r, k⟩ := f
  obtain ⟨hmarker, hchecksum⟩ := h
  cases hmarker
  exact congrArg (WireFrame.mk Config.marker c payload r) hchecksum.symm

theorem decodeCandidate_of_not_valid {p : Params} (hd : p.Distinct) {f : WireFrame} (h : ¬ Valid f) :
    decodeCandidate p f = .ok (.frameInvalid f) := by
  rw [decodeCandidate, if_pos hd, decodeFrame_of_not_valid h]

theorem decodeCandidate_of_valid {p : Params} (hd : p.Distinct) {f : WireFrame} (h : Valid f) :
    decodeCandidate p f = .ok (selectCommand p ⟨f.command, f.payload, f.reserved, f.checksum⟩) := by
  rw [decodeCandidate, if_pos hd, decodeFrame_of_valid h]

/-- A valid candidate is the row whose code its command byte equals. -/
theorem decodeCandidate_of_mem {p : Params} (hd : p.Distinct) {row : Byte × (Payload → Byte → Instr)}
    (hrow : row ∈ commandRows p) {f : WireFrame} (hv : Valid f) (hc : f.command = row.1) :
    decodeCandidate p f = .ok (row.2 f.payload f.reserved) := by
  rw [decodeCandidate_of_valid hd hv, selectCommand_of_mem hd hrow hc]

theorem decodeCandidate_of_not_mem {p : Params} (hd : p.Distinct) {f : WireFrame} (hv : Valid f)
    (hc : f.command ∉ p.requestCodes) :
    decodeCandidate p f = .ok (.unrecognized f.command f.payload f.reserved) := by
  rw [decodeCandidate_of_valid hd hv, selectCommand_of_not_mem hc]

/-! ### Acks (30_encoding R55) -/

theorem encodeFrame_ne {c d : Byte} (h : c ≠ d) (payload payload' : Payload) :
    encodeFrame c payload ≠ encodeFrame d payload' := fun he => h (congrArg WireFrame.command he)

/-- Distinct ack codes, as the ten inequalities. -/
theorem ackCodes_nodup_iff (p : Params) :
    p.ackCodes.Nodup ↔
      (p.ackConfigTc ≠ p.ackSetPower ∧ p.ackConfigTc ≠ p.ackAuto ∧ p.ackConfigTc ≠ p.ackManual ∧
       p.ackConfigTc ≠ p.ackShutdown ∧ p.ackSetPower ≠ p.ackAuto ∧ p.ackSetPower ≠ p.ackManual ∧
       p.ackSetPower ≠ p.ackShutdown ∧ p.ackAuto ≠ p.ackManual ∧ p.ackAuto ≠ p.ackShutdown ∧
       p.ackManual ≠ p.ackShutdown) := by
  simp [Params.ackCodes, and_assoc]

/-! ### Decoding an encoded row, place by place -/

theorem decode_encode_feed {p : Params} {m : Mode} {k : Nat} {i : Instr} {bytes : List Byte}
    (hw : wellFormed p i = true) (hs : siteFits (.feed m k) i = true) (he : encode p i = some bytes) :
    decode p (.feed m k) bytes = .ok i := by
  cases m with
  | seeking =>
    cases i with
    | feedNoise b => cases he; exact decodeFedByte_noise (of_decide_eq_true hw) k
    | feedStart => cases he; exact decodeFedByte_marker k
    | _ => cases hs
  | accumulating =>
    cases i with
    | feedData b =>
      cases he
      have hk : k + 1 < 8 := of_decide_eq_true hs
      exact decodeFedByte_data (by omega) b
    | feedEnd b =>
      cases he
      obtain rfl : k = 7 := Nat.succ.inj (of_decide_eq_true hs)
      exact decodeFedByte_end b
    | _ => cases hs

theorem decode_encode_inbound {p : Params} (hd : p.Distinct) {i : Instr} {bytes : List Byte}
    (hw : wellFormed p i = true) (hs : siteFits .inbound i = true) (he : encode p i = some bytes) :
    decode p .inbound bytes = .ok i := by
  obtain ⟨hConfigTc, hSetPower, hAuto, hManual, hShutdown⟩ := mem_commandRows p
  cases i with
  | configTc payload reserved => cases he; exact decodeCandidate_of_mem hd hConfigTc (valid_validFrame ..) rfl
  | setPower payload reserved => cases he; exact decodeCandidate_of_mem hd hSetPower (valid_validFrame ..) rfl
  | enableAuto payload reserved => cases he; exact decodeCandidate_of_mem hd hAuto (valid_validFrame ..) rfl
  | enableManual payload reserved => cases he; exact decodeCandidate_of_mem hd hManual (valid_validFrame ..) rfl
  | shutdown payload reserved => cases he; exact decodeCandidate_of_mem hd hShutdown (valid_validFrame ..) rfl
  | unrecognized c payload reserved =>
    cases he
    exact decodeCandidate_of_not_mem hd (valid_validFrame c payload reserved) (of_decide_eq_true hw)
  | frameInvalid f => cases he; exact decodeCandidate_of_not_valid hd (of_decide_eq_true hw)
  | _ => cases hs

/-- An ack frame is no earlier row of the table, because its code is another. -/
theorem decode_encode_outbound {p : Params} (hack : p.ackCodes.Nodup) {i : Instr} {bytes : List Byte}
    (hs : siteFits .outbound i = true) (he : encode p i = some bytes) : decode p .outbound bytes = .ok i := by
  obtain ⟨hTcPower, hTcAuto, hTcManual, hTcShutdown, hPowerAuto, hPowerManual, hPowerShutdown, hAutoManual,
    hAutoShutdown, hManualShutdown⟩ := (ackCodes_nodup_iff p).mp hack
  cases i with
  | ackConfigTcFrame v =>
    cases he
    have hv : payloadByte (ackConfigTc p v).payload p.tcAckIndex = v := payloadByte_payloadWith p.tcAckIndex v
    rw [decode_outbound_frameBytes, decodeWritten, hv, if_pos rfl]
  | ackSetPowerFrame v =>
    cases he
    exact (if_neg (encodeFrame_ne hTcPower.symm _ _)).trans (if_pos rfl)
  | ackAutoFrame =>
    cases he
    exact (if_neg (encodeFrame_ne hTcAuto.symm _ _)).trans <|
      (if_neg (encodeFrame_ne hPowerAuto.symm _ _)).trans (if_pos rfl)
  | ackManualFrame =>
    cases he
    exact (if_neg (encodeFrame_ne hTcManual.symm _ _)).trans <|
      (if_neg (encodeFrame_ne hPowerManual.symm _ _)).trans <|
      (if_neg (encodeFrame_ne hAutoManual.symm _ _)).trans (if_pos rfl)
  | ackShutdownFrame =>
    cases he
    exact (if_neg (encodeFrame_ne hTcShutdown.symm _ _)).trans <|
      (if_neg (encodeFrame_ne hPowerShutdown.symm _ _)).trans <|
      (if_neg (encodeFrame_ne hAutoShutdown.symm _ _)).trans <|
      (if_neg (encodeFrame_ne hManualShutdown.symm _ _)).trans (if_pos rfl)
  | _ => cases hs

/-! ### Encoding a decoded row, place by place -/

theorem encode_of_decodeFedByte {m : Mode} {k : Nat} {b : Byte} {i : Instr} (p : Params)
    (h : decodeFedByte m k b = .ok i) :
    wellFormed p i = true ∧ siteFits (.feed m k) i = true ∧ encode p i = some [b] := by
  cases m with
  | seeking =>
    by_cases hb : b = Config.marker
    · rw [hb, decodeFedByte_marker] at h
      cases h
      exact ⟨rfl, rfl, by rw [hb]; rfl⟩
    · rw [decodeFedByte_noise hb] at h
      cases h
      exact ⟨decide_eq_true hb, rfl, rfl⟩
  | accumulating =>
    rw [decodeFedByte] at h
    split_ifs at h with hdata hend
    · cases h
      exact ⟨rfl, decide_eq_true hdata, rfl⟩
    · cases h
      exact ⟨rfl, decide_eq_true hend, rfl⟩

theorem encode_of_decodeCandidate {p : Params} {f : WireFrame} {i : Instr} (h : decodeCandidate p f = .ok i) :
    wellFormed p i = true ∧ siteFits .inbound i = true ∧ encode p i = some (frameBytes f) := by
  have hd : p.Distinct := (decodeCandidate_ok_iff p f).mp ⟨i, h⟩
  by_cases hv : Valid f
  · by_cases hc : f.command ∈ p.requestCodes
    · obtain ⟨row, hrow, hcode⟩ := List.mem_map.mp (map_fst_commandRows p ▸ hc)
      rw [decodeCandidate_of_mem hd hrow hv hcode.symm] at h
      cases h
      have henc := encode_of_mem_commandRows hrow f.payload f.reserved
      rwa [hcode, validFrame_of_valid hv] at henc
    · rw [decodeCandidate_of_not_mem hd hv hc] at h
      cases h
      exact ⟨decide_eq_true hc, rfl, by rw [encode, validFrame_of_valid hv]⟩
  · rw [decodeCandidate_of_not_valid hd hv] at h
    cases h
    exact ⟨decide_eq_true hv, rfl, rfl⟩

/-- Bytes that have a row on WRITE are a frame's. -/
theorem frame_of_decode_outbound {p : Params} {bytes : List Byte} {i : Instr} (h : decode p .outbound bytes = .ok i) :
    ∃ f, bytes = frameBytes f := by
  by_cases hlen : bytes.length = 8
  · obtain ⟨f, -, hbytes⟩ := frameOfBytes_of_length hlen
    exact ⟨f, hbytes.symm⟩
  · rw [decode, frameOfBytes_of_length_ne hlen] at h
    cases h

theorem encode_of_decodeWritten {p : Params} {f : WireFrame} {i : Instr} (h : decodeWritten p f = .ok i) :
    wellFormed p i = true ∧ siteFits .outbound i = true ∧ encode p i = some (frameBytes f) := by
  rw [decodeWritten] at h
  split_ifs at h with hack hack hack hack hack
  all_goals
    cases h
    exact ⟨rfl, rfl, congrArg (fun g => some (frameBytes g)) hack.symm⟩

/-! ### A whole frame fed from SEEKING -/

theorem ready_of_boundary {s : State} (hb : Boundary s) (hd : s.params.Distinct) : Ready s :=
  ⟨hd, regInv_of_boundary hb⟩

theorem boundary_of_ready_seeking {s : State} (hr : Ready s) (hm : s.mode = .seeking) : Boundary s := by
  obtain ⟨-, -, -, hseek⟩ := hr
  obtain ⟨hbuf, hcount⟩ := hseek hm
  exact .inl ⟨hm, hcount, hbuf⟩

theorem runSteps_keeps_boundary {k : Nat} {s t : State} (hb : Boundary s) (h : runSteps k s = .next t) :
    Boundary t := by
  induction k generalizing s with
  | zero => cases h; exact hb
  | succ k ih =>
    obtain ⟨u, hstep, hrun⟩ := runSteps_succ_next h
    exact ih (step_keeps_boundary hb hstep) hrun

theorem step_start {s : State} {rest : List Byte} (hr : Ready s) (hm : s.mode = .seeking)
    (hin : s.input = Config.marker :: rest) :
    step s = .next { s with
      mode := .accumulating, count := 1, buf := [Config.marker], input := rest,
      outcomes := s.outcomes ++ [.frameStarted] } :=
  (step_eq_exec hr hin (hm ▸ decodeFedByte_marker s.count)).trans (exec_feedStart (s := { s with input := rest }) hr hm)

theorem step_data {s : State} {b : Byte} {rest : List Byte} (hr : Ready s) (hm : s.mode = .accumulating)
    (hc : s.count ≤ 6) (hin : s.input = b :: rest) :
    step s = .next { s with
      count := s.count + 1, buf := s.buf ++ [b], input := rest, outcomes := s.outcomes ++ [.byteAccumulated] } :=
  (step_eq_exec hr hin (hm ▸ decodeFedByte_data hc b)).trans (exec_feedData (s := { s with input := rest }) hr hm hc b)

theorem step_end {s : State} {b : Byte} {rest : List Byte} {cand : WireFrame} (hr : Ready s)
    (hm : s.mode = .accumulating) (hc : s.count = 7) (hin : s.input = b :: rest)
    (hcand : frameOfBytes (s.buf ++ [b]) = some cand) :
    step s = .next { s with
      mode := .seeking, count := 0, buf := [], input := rest,
      events := s.events ++ (candidateSpec s.params cand).1,
      outcomes := s.outcomes ++ [(candidateSpec s.params cand).2] } :=
  (step_eq_exec hr hin (hm ▸ hc ▸ decodeFedByte_end b)).trans
    (exec_feedEnd_eq (s := { s with input := rest }) hr hm hc hcand)

/-- Bytes that leave the frame incomplete are appended, one outcome each. -/
theorem runSteps_data {bs rest : List Byte} {s : State} (hb : Boundary s) (hd : s.params.Distinct)
    (hm : s.mode = .accumulating) (hc : s.count + bs.length ≤ 7) (hin : s.input = bs ++ rest) :
    runSteps bs.length s = .next { s with
      count := s.count + bs.length, buf := s.buf ++ bs, input := rest,
      outcomes := s.outcomes ++ List.replicate bs.length .byteAccumulated } := by
  induction bs generalizing s with
  | nil =>
    subst hin
    simp
  | cons b bs ih =>
    rw [List.length_cons] at hc
    have hstep := step_data (ready_of_boundary hb hd) hm (by omega) hin
    have hroom : s.count + 1 + bs.length ≤ 7 := by omega
    rw [List.length_cons, runSteps_succ_of_next hstep, ih (step_keeps_boundary hb hstep) hd hm hroom rfl]
    simp [List.replicate_succ, Nat.add_assoc, Nat.add_comm 1]

/-- Eight bytes that begin with the marker, fed from SEEKING, are one candidate: FEED_START, six FEED_DATA, FEED_END. -/
theorem runSteps_frame {s : State} {f : WireFrame} {rest : List Byte} (hr : Ready s) (hm : s.mode = .seeking)
    (hf : f.marker = Config.marker) (hin : s.input = frameBytes f ++ rest) :
    runSteps 8 s = .next { s with
      mode := .seeking, count := 0, buf := [], input := rest,
      events := s.events ++ (candidateSpec s.params f).1,
      outcomes := s.outcomes ++ [.frameStarted] ++ List.replicate 6 .byteAccumulated ++
        [(candidateSpec s.params f).2] } := by
  have hbytes : frameBytes f ++ rest = Config.marker :: ((frameHead f).tail ++ f.checksum :: rest) := by
    rw [← hf]; rfl
  have hcand : frameOfBytes ([Config.marker] ++ (frameHead f).tail ++ [f.checksum]) = some f := by
    rw [← hf]; rfl
  have hstart := step_start hr hm (hin.trans hbytes)
  have hbstart := step_keeps_boundary (boundary_of_ready_seeking hr hm) hstart
  have hdata := runSteps_data (bs := (frameHead f).tail) hbstart hr.1 rfl le_rfl rfl
  have hend := step_end (ready_of_boundary (runSteps_keeps_boundary hbstart hdata) hr.1) rfl rfl rfl hcand
  rw [runSteps_succ_of_next hstart 7]
  exact (runSteps_add hdata 1).trans (runSteps_succ_of_next hend 0)

/-! ### What a valid candidate's transaction reads -/

theorem candidateSpec_of_valid {f : WireFrame} (h : Valid f) (p : Params) :
    candidateSpec p f = dispatchSpec p ⟨f.command, f.payload, f.reserved, f.checksum⟩ := by
  rw [candidateSpec, decodeFrame_of_valid h]

/-- DISPATCH reads the command byte and, where the command takes one, its operand (30_encoding R54). -/
theorem dispatchSpec_congr {p : Params} {fr gr : Frame} (hc : fr.command = gr.command)
    (htc : fr.command = p.cmdConfigTc → tcOperand p fr.payload = tcOperand p gr.payload)
    (hpower : fr.command = p.cmdSetPower → powerOperand fr.payload = powerOperand gr.payload) :
    dispatchSpec p fr = dispatchSpec p gr := by
  unfold dispatchSpec
  rw [← hc]
  split_ifs with h1 h2
  · rw [htc h1]
  · rw [hpower h2]
  all_goals rfl

theorem dispatchSpec_ne_frameInvalid (p : Params) (fr : Frame) : (dispatchSpec p fr).2 ≠ .frameInvalid := by
  unfold dispatchSpec
  split_ifs
  all_goals nofun

/-! ### The statements of 30_encoding -/

/-- Settles O31, place by place. -/
theorem decodeOfEncode : Obligations.DecodeOfEncode := by
  intro p site i bytes hd hw hs hack he
  cases site with
  | feed m k => exact decode_encode_feed hw hs he
  | inbound => exact decode_encode_inbound hd hw hs he
  | outbound => exact decode_encode_outbound (hack rfl) hs he

/-- Settles O32, place by place: the bytes are one fed byte or one frame, and that byte or frame fixes the row. -/
theorem encodeOfDecode : Obligations.EncodeOfDecode := by
  intro p site i bytes h
  cases site with
  | feed m k =>
    obtain ⟨hlen, -⟩ := (decode_feed_ok_iff p m k bytes).mp ⟨i, h⟩
    obtain ⟨b, rfl⟩ := List.length_eq_one_iff.mp hlen
    exact encode_of_decodeFedByte p h
  | inbound =>
    obtain ⟨hlen, -⟩ := (decode_inbound_ok_iff p bytes).mp ⟨i, h⟩
    obtain ⟨f, -, rfl⟩ := frameOfBytes_of_length hlen
    exact encode_of_decodeCandidate h
  | outbound =>
    obtain ⟨f, rfl⟩ := frame_of_decode_outbound h
    exact encode_of_decodeWritten h

/-- Settles O8: between transactions the count leaves room for the fed byte, so it has a row. -/
theorem nothingStopsTheBlock : Obligations.NothingStopsTheBlock := by
  have hnext : ∀ s : State, s.params.Distinct → Boundary s → ∃ t, step s = .next t := by
    intro s hd hb
    have hr := ready_of_boundary hb hd
    cases hin : s.input with
    | nil => exact ⟨s, step_of_idle hr hin⟩
    | cons b rest => exact ⟨_, step_eq_afterFeed hr (count_le_seven_of_boundary hb) hin⟩
  refine ⟨hnext, fun p s hd h => ?_⟩
  exact hnext s (params_of_reachable h ▸ hd) (boundary_of_reachable h)

/-- Settles O14: the candidate has a row, and both sides are the end of its transaction. -/
theorem frameEndRunsTheFrameRow : Obligations.FrameEndRunsTheFrameRow := by
  intro s b hr hm hc
  obtain ⟨cand, hcand, hbytes, -⟩ := execFeedEnd_eq hr hm hc b
  obtain ⟨i, hi⟩ := (decodeCandidate_ok_iff s.params cand).mpr hr.1
  refine ⟨i, by rw [← hbytes]; exact hi, ?_⟩
  exact (exec_feedEnd hr hm hc hcand).trans (Eq.symm (exec_of_decodeCandidate (p := s.params) rfl hi))

/-- Settles O47: the eighth byte's transaction reads the two candidates alike, and the seven before it put out no event. -/
theorem reservedAndUnusedBytesAreIgnored : Obligations.ReservedAndUnusedBytesAreIgnored := by
  intro s f g rest hr hm hf hg hcommand htc hpower
  have hsame : candidateSpec s.params f = candidateSpec s.params g := by
    rw [candidateSpec_of_valid hf, candidateSpec_of_valid hg]
    exact dispatchSpec_congr hcommand htc hpower
  refine ⟨_, runSteps_frame (s := { s with input := frameBytes f ++ rest }) hr hm hf.1 rfl, ?_, ?_⟩
  · rw [hsame]
    exact runSteps_frame (s := { s with input := frameBytes g ++ rest }) hr hm hg.1 rfl
  · rw [candidateSpec_of_valid hf, List.getLast?_concat, Ne, Option.some.injEq]
    exact dispatchSpec_ne_frameInvalid _ _

/-- Settles O15: on a ready state the guards pass and the row's own condition answers. -/
theorem feedRowsRunOnlyWhereSelected : Obligations.FeedRowsRunOnlyWhereSelected := by
  intro s b hr
  refine ⟨fun (hnot : ¬ (s.mode = .seeking ∧ b ≠ Config.marker)) => ?_, fun hm => ?_, fun hnot => ?_, fun hnot => ?_⟩
  · rw [exec, execFeedNoise, feedGuard_of_ready hr, ifSelected_of_false hnot]
  · have hnot : ¬ s.mode = .seeking := by rw [hm]; nofun
    rw [exec, execFeedStart, feedGuard_of_ready hr, ifSelected_of_false hnot]
  · have hnot' : ¬ (s.mode = .accumulating ∧ s.count + 1 < Config.frameSize) := by
      rintro ⟨hm, hc⟩
      exact hnot ⟨hm, Nat.le_of_lt_succ (Nat.lt_of_succ_lt_succ hc)⟩
    rw [exec, execFeedData, feedGuard_of_ready hr, ifSelected_of_false hnot']
  · have hnot' : ¬ (s.mode = .accumulating ∧ s.count + 1 = Config.frameSize) := by
      rintro ⟨hm, hc⟩
      exact hnot ⟨hm, Nat.succ.inj hc⟩
    rw [exec, execFeedEnd, feedGuard_of_ready hr, ifSelected_of_false hnot']

/-- Settles O34, class by class. -/
theorem fedByteClasses : Obligations.FedByteClasses := by
  intro p b k
  refine ⟨fun hb => decodeFedByte_noise hb k, ?_, fun hk => decodeFedByte_data hk b, ?_⟩
  · rintro rfl
    exact decodeFedByte_marker k
  · rintro rfl
    exact decodeFedByte_end b

/-- Settles O35: validity first, then the row of the code, or no row of the table. -/
theorem commandSelection : Obligations.CommandSelection := by
  intro p f hd
  obtain ⟨hConfigTc, hSetPower, hAuto, hManual, hShutdown⟩ := mem_commandRows p
  exact ⟨decodeCandidate_of_not_valid hd, fun hv =>
    ⟨decodeCandidate_of_mem hd hConfigTc hv, decodeCandidate_of_mem hd hSetPower hv, decodeCandidate_of_mem hd hAuto hv,
      decodeCandidate_of_mem hd hManual hv, decodeCandidate_of_mem hd hShutdown hv, decodeCandidate_of_not_mem hd hv⟩⟩

/-- Settles O36: each word is written out, and the decoder evaluates on it. -/
theorem sampleWordsDecode : Obligations.SampleWordsDecode :=
  ⟨rfl, rfl, rfl, rfl, rfl, rfl, rfl, rfl⟩

end Sys2Proof.Machine

/-! ## The codec

The checksum is `0xFF` less the sum of the bytes it covers, so a frame is valid exactly where it begins with the marker and
its eight bytes sum to `0xFF` mod 256, and a line error is missed exactly where it keeps the marker and that sum; the
statements of 40_codec are short uses of this. -/

namespace Sys2Proof.Machine

/-! ### The checksum and the sum of the bytes (40_codec R64, R65) -/

theorem foldl_sub_eq (bs : List Byte) (c : Byte) :
    bs.foldl (fun c b => c - b) c = c - BitVec.ofNat 8 (byteSum bs) := by
  induction bs generalizing c with
  | nil => simp
  | cons b bs ih =>
    rw [List.foldl_cons, ih, byteSum_cons, BitVec.ofNat_add, BitVec.ofNat_toNat, BitVec.setWidth_eq, sub_sub]

/-- The closed form of the stepwise checksum. -/
theorem checksum_toNat (bytes : List Byte) (n : Nat) :
    (checksum bytes n).toNat = 255 - byteSum (bytes.take n) % 256 := by
  rw [checksum, foldl_sub_eq, Config.ckSeed]
  bv_omega

theorem byteSum_frameBytes (f : WireFrame) :
    byteSum (frameBytes f) = byteSum (frameHead f) + f.checksum.toNat := by
  rw [show frameBytes f = frameHead f ++ [f.checksum] from rfl, byteSum_append, byteSum_cons, byteSum_nil, Nat.add_zero]

theorem checksum_fits_iff (f : WireFrame) :
    f.checksum = checksum (frameHead f) Config.ckLen ↔ byteSum (frameBytes f) % 256 = 255 := by
  have hclosed : (checksum (frameHead f) Config.ckLen).toNat = 255 - byteSum (frameHead f) % 256 :=
    checksum_toNat (frameHead f) Config.ckLen
  have hbyte := f.checksum.isLt
  rw [← BitVec.toNat_inj, hclosed, byteSum_frameBytes]
  omega

/-- A receiver may sum all eight bytes instead of recomputing the checksum. -/
theorem valid_iff_sum (f : WireFrame) : Valid f ↔ f.marker = Config.marker ∧ byteSum (frameBytes f) % 256 = 255 :=
  and_congr_right fun _ => checksum_fits_iff f

/-! ### One byte changed -/

/-- Changing one byte changes the sum by that byte's change. -/
theorem byteSum_modify {bs : List Byte} {i : Nat} (hi : i < bs.length) (g : Byte → Byte) :
    byteSum (bs.modify i g) + (bs.getD i 0#8).toNat = byteSum bs + (g (bs.getD i 0#8)).toNat := by
  induction bs generalizing i with
  | nil => cases hi
  | cons b bs ih =>
    cases i with
    | zero =>
      simp only [List.modify_zero_cons, byteSum_cons, List.getD_cons_zero]
      omega
    | succ i =>
      have hrest := ih (Nat.lt_of_succ_lt_succ hi)
      simp only [List.modify_succ_cons, byteSum_cons, List.getD_cons_succ]
      omega

/-- No change of a single byte leads from a valid frame to another one. -/
theorem eq_of_valid_modify {f g : WireFrame} (hf : Valid f) (hg : Valid g) (i : Fin 8) {h : Byte → Byte}
    (hbytes : frameBytes g = (frameBytes f).modify i h) :
    h ((frameBytes f).getD i 0#8) = (frameBytes f).getD i 0#8 := by
  obtain ⟨-, hfsum⟩ := (valid_iff_sum f).mp hf
  obtain ⟨-, hgsum⟩ := (valid_iff_sum g).mp hg
  have hmodify := byteSum_modify (bs := frameBytes f) i.isLt h
  rw [← hbytes] at hmodify
  bv_omega

/-! ### One bit flipped -/

/-- The signed change of a byte's value when its bit k, set or not, is flipped. -/
def flipChange (isSet : Bool) (k : Fin 8) : Int := if isSet then -(2 ^ k.val) else 2 ^ k.val

theorem flipBit_eq_modify (bs : List Byte) (i : Nat) (k : Fin 8) :
    flipBit bs i k = bs.modify i (· ^^^ BitVec.twoPow 8 k) := by
  have hbit : BitVec.ofNat 8 (2 ^ k.val) = BitVec.twoPow 8 k :=
    BitVec.eq_of_toNat_eq (by rw [BitVec.toNat_ofNat, BitVec.toNat_twoPow])
  rw [flipBit, hbit]

theorem twoPow_ne_zero (k : Fin 8) : BitVec.twoPow 8 k ≠ 0#8 := by
  revert k
  decide

theorem twoPow_injective {k l : Fin 8} (h : BitVec.twoPow 8 k = BitVec.twoPow 8 l) : k = l := by
  revert k l
  decide

theorem xor_twoPow_ne (b : Byte) (k : Fin 8) : b ^^^ BitVec.twoPow 8 k ≠ b := fun h =>
  twoPow_ne_zero k ((BitVec.xor_right_inj b).mp (h.trans BitVec.xor_zero.symm))

theorem xor_twoPow_xor_twoPow_ne (b : Byte) {k l : Fin 8} (h : k ≠ l) :
    b ^^^ BitVec.twoPow 8 k ^^^ BitVec.twoPow 8 l ≠ b := fun hb =>
  h (twoPow_injective (BitVec.xor_eq_zero_iff.mp
    ((BitVec.xor_right_inj b).mp (((BitVec.xor_assoc ..).symm.trans hb).trans BitVec.xor_zero.symm))))

theorem toNat_xor_of_unset {b : Byte} {k : Fin 8} (h : b.getLsbD k = false) :
    (b ^^^ BitVec.twoPow 8 k).toNat = b.toNat + 2 ^ k.val := by
  have hdisjoint : b &&& BitVec.twoPow 8 k = 0#8 := by rw [BitVec.and_comm, BitVec.twoPow_and, h]; rfl
  have hor : b ^^^ BitVec.twoPow 8 k = b ||| BitVec.twoPow 8 k := by
    ext m hm
    have hbit : (b &&& BitVec.twoPow 8 k)[m] = false := by rw [hdisjoint, BitVec.getElem_zero]
    rw [BitVec.getElem_and] at hbit
    rw [BitVec.getElem_xor, BitVec.getElem_or]
    grind
  rw [hor, ← BitVec.add_eq_or_of_and_eq_zero _ _ hdisjoint, BitVec.toNat_add_of_and_eq_zero hdisjoint,
    BitVec.toNat_twoPow_of_lt k.isLt]

/-- An unset bit adds its weight; a set bit is an unset one's flip undone. -/
theorem toNat_xor_twoPow (b : Byte) (k : Fin 8) :
    ((b ^^^ BitVec.twoPow 8 k).toNat : Int) = b.toNat + flipChange (b.getLsbD k) k := by
  cases h : b.getLsbD k with
  | false => simp [toNat_xor_of_unset h, flipChange]
  | true =>
    have hunset : (b ^^^ BitVec.twoPow 8 k).getLsbD k = false := by simp [h, k.isLt]
    have hback := toNat_xor_of_unset hunset
    rw [BitVec.xor_assoc, BitVec.xor_self, BitVec.xor_zero] at hback
    zify at hback
    rw [hback, flipChange, if_pos rfl, add_neg_cancel_right]

theorem getD_flipBit_self {bs : List Byte} {i : Nat} (hi : i < bs.length) (k : Fin 8) :
    (flipBit bs i k).getD i 0#8 = bs.getD i 0#8 ^^^ BitVec.twoPow 8 k := by
  simp [flipBit_eq_modify, hi]

theorem getD_flipBit_ne (bs : List Byte) {i j : Nat} (h : i ≠ j) (k : Fin 8) :
    (flipBit bs i k).getD j 0#8 = bs.getD j 0#8 := by
  simp [flipBit_eq_modify, h]

@[simp] theorem flipBit_length (bs : List Byte) (i : Nat) (k : Fin 8) : (flipBit bs i k).length = bs.length := by
  rw [flipBit, List.length_modify]

theorem byteSum_flipBit {bs : List Byte} {i : Nat} (hi : i < bs.length) (k : Fin 8) :
    (byteSum (flipBit bs i k) : Int) = byteSum bs + flipChange ((bs.getD i 0#8).getLsbD k) k := by
  have hsum := byteSum_modify hi (· ^^^ BitVec.twoPow 8 k)
  have hbyte := toNat_xor_twoPow (bs.getD i 0#8) k
  rw [flipBit_eq_modify]
  omega

/-! ### Two bits flipped (40_codec R72) -/

/-- Two signed powers of two below 256 cancel mod 256 only as `2^k - 2^k` or as `±128 ± 128`. -/
theorem flipChange_add_iff (a b : Bool) (k l : Fin 8) :
    (flipChange a k + flipChange b l) % 256 = 0 ↔ (k = l ∧ k ≠ 7 ∧ a ≠ b) ∨ (k = 7 ∧ l = 7) := by
  revert a b k l
  decide

section TwoFlips

variable {f g : WireFrame} {i j k l : Fin 8} (hij : i ≠ j)
  (hbytes : frameBytes g = flipBit (flipBit (frameBytes f) i k) j l)
include hij hbytes

theorem getD_twoFlips_left : (frameBytes g).getD i 0#8 = (frameBytes f).getD i 0#8 ^^^ BitVec.twoPow 8 k := by
  rw [hbytes, getD_flipBit_ne _ (Fin.val_ne_of_ne hij.symm), getD_flipBit_self i.isLt]

theorem getD_twoFlips_right : (frameBytes g).getD j 0#8 = (frameBytes f).getD j 0#8 ^^^ BitVec.twoPow 8 l := by
  rw [hbytes, getD_flipBit_self (by simp), getD_flipBit_ne _ (Fin.val_ne_of_ne hij)]

theorem byteSum_twoFlips :
    (byteSum (frameBytes g) : Int) = byteSum (frameBytes f) +
      (flipChange (((frameBytes f).getD i 0#8).getLsbD k) k + flipChange (((frameBytes f).getD j 0#8).getLsbD l) l) := by
  rw [hbytes, byteSum_flipBit (by simp), byteSum_flipBit i.isLt, getD_flipBit_ne _ (Fin.val_ne_of_ne hij), add_assoc]

/-- The marker stays exactly where neither flip is at offset 0. -/
theorem marker_twoFlips : g.marker = f.marker ↔ i ≠ 0 ∧ j ≠ 0 := by
  by_cases hi : i = 0
  · subst hi
    exact iff_of_false (fun h => xor_twoPow_ne _ k ((getD_twoFlips_left hij hbytes).symm.trans h)) (fun h => h.1 rfl)
  by_cases hj : j = 0
  · subst hj
    exact iff_of_false (fun h => xor_twoPow_ne _ l ((getD_twoFlips_right hij hbytes).symm.trans h)) (fun h => h.2 rfl)
  have hkept : (frameBytes g).getD 0 0#8 = (frameBytes f).getD 0 0#8 := by
    rw [hbytes, getD_flipBit_ne _ (Fin.val_ne_zero_iff.mpr hj), getD_flipBit_ne _ (Fin.val_ne_zero_iff.mpr hi)]
  exact iff_of_true hkept ⟨hi, hj⟩

/-- A line error of two flips in different bytes is missed exactly where it keeps the marker and the sum. -/
theorem valid_twoFlips_iff (hf : Valid f) :
    Valid g ↔ i ≠ 0 ∧ j ≠ 0 ∧
      (flipChange (((frameBytes f).getD i 0#8).getLsbD k) k +
        flipChange (((frameBytes f).getD j 0#8).getLsbD l) l) % 256 = 0 := by
  obtain ⟨hmarker, hsum⟩ := (valid_iff_sum f).mp hf
  have hchange := byteSum_twoFlips hij hbytes
  rw [valid_iff_sum, ← hmarker, marker_twoFlips hij hbytes, and_assoc]
  refine and_congr_right fun _ => and_congr_right fun _ => ?_
  omega

end TwoFlips

/-! ### The codec rows -/

theorem exec_checksum_of_le {bytes : List Byte} {n : Nat} (h : n ≤ bytes.length) (s : State) :
    exec (.checksum bytes n) s = .next (codecReturn (.byte (checksum bytes n)) s) := if_pos h

theorem exec_checksum_of_lt {bytes : List Byte} {n : Nat} (h : bytes.length < n) (s : State) :
    exec (.checksum bytes n) s = .refused .checksumOutOfDomain := if_neg (Nat.not_le_of_lt h)

theorem exec_encode (c : Byte) (p : Payload) (s : State) :
    exec (.encode c p) s = .next (codecReturn (.frame (encodeFrame c p)) s) := rfl

theorem exec_decode (f : WireFrame) (s : State) :
    exec (.decode f) s = .next (codecReturn (.decoded (decodeFrame f)) s) := rfl

/-! ### The frames of the source's scenario (95_test_vectors W1) -/

theorem frameBytes_encodeFrame_power (c : Byte) :
    frameBytes (encodeFrame c (payloadWith Config.setPowerIndex 0x32#8)) =
      [0x7E#8, c, 0x32#8, 0x00#8, 0x00#8, 0x00#8, 0x00#8, 0x4F#8 - c] := by
  have hsum : checksum [0x7E#8, c, 0x32#8, 0x00#8, 0x00#8, 0x00#8, 0x00#8] 7 = 0x4F#8 - c := by
    simp only [checksum, List.take, List.foldl, Config.ckSeed]
    bv_omega
  rw [← hsum]
  rfl

theorem dispatchSpec_setPower {p : Params} (hd : p.Distinct) {fr : Frame} (hc : fr.command = p.cmdSetPower) :
    dispatchSpec p fr =
      ([.setPower (powerOperand fr.payload), .write (ackSetPower p (powerOperand fr.payload))],
        .dispatchedSetPower) := by
  obtain ⟨hne, -⟩ := (distinct_iff p).mp hd
  rw [dispatchSpec, hc, if_neg hne.symm, if_pos rfl]

/-! ### The statements of 40_codec -/

/-- Settles O23: within the bytes the stepwise checksum has the closed form, and beyond them the row refuses. -/
theorem checksumRow : Obligations.ChecksumRow := by
  intro s bytes n
  refine ⟨fun hn => ?_, fun hn => exec_checksum_of_lt hn s⟩
  have hclosed : checksum bytes n = BitVec.ofNat 8 (255 - byteSum (bytes.take n) % 256) := by
    rw [← checksum_toNat, BitVec.ofNat_toNat, BitVec.setWidth_eq]
  rw [exec_checksum_of_le hn, hclosed]
  rfl

/-- Settles O24: the other two forms are the closed one, read in the integers and bit by bit. -/
theorem checksumClosedForm : Obligations.ChecksumClosedForm := by
  intro bytes n _
  have hclosed := checksum_toNat bytes n
  refine ⟨by omega, hclosed, BitVec.eq_of_toNat_eq ?_⟩
  rw [hclosed, BitVec.toNat_not, BitVec.toNat_ofNat]

/-- Settles O25. -/
theorem frameSumLaw : Obligations.FrameSumLaw := checksum_fits_iff

/-- Settles O29: the flipped byte would have to keep its value. -/
theorem singleBitErrorsAreDetected : Obligations.SingleBitErrorsAreDetected := by
  intro f g i k hf hbytes hg
  rw [flipBit_eq_modify] at hbytes
  exact xor_twoPow_ne _ k (eq_of_valid_modify hf hg i hbytes)

/-- Settles O30: two flips in one byte change that byte alone, and to another value; two flips in different bytes are
missed where they keep the marker and their signed changes cancel. -/
theorem twoBitErrorsMissed : Obligations.TwoBitErrorsMissed := by
  intro f g i j k l hf hbytes
  constructor
  · rintro rfl hkl hg
    rw [flipBit_eq_modify, flipBit_eq_modify, List.modify_modify_eq] at hbytes
    exact xor_twoPow_xor_twoPow_ne _ hkl (eq_of_valid_modify hf hg i hbytes)
  · intro hij change
    have hi : change i = flipChange (((frameBytes f).getD i 0#8).getLsbD k) k := by
      simp only [change, getD_twoFlips_left hij hbytes, toNat_xor_twoPow, add_sub_cancel_left]
    have hj : change j = flipChange (((frameBytes f).getD j 0#8).getLsbD l) l := by
      simp only [change, getD_twoFlips_right hij hbytes, toNat_xor_twoPow, add_sub_cancel_left]
    rw [hi, hj]
    exact ⟨valid_twoFlips_iff hij hbytes hf, flipChange_add_iff _ _ k l⟩

/-- Settles O53: the eight bytes are the encoded Set-Power frame, and its dispatch writes the encoded ack. -/
theorem concreteScenarioOfTheSource : Obligations.ConcreteScenarioOfTheSource := by
  intro s rest hr hm hin
  rw [← frameBytes_encodeFrame_power] at hin
  have hspec := candidateSpec_of_valid
    (valid_encodeFrame s.params.cmdSetPower (payloadWith Config.setPowerIndex 0x32#8)) s.params
  rw [dispatchSpec_setPower hr.1 rfl] at hspec
  refine ⟨_, ackSetPower s.params 0x32#8, runSteps_frame hr hm rfl hin, rfl, rfl, ?_,
    frameBytes_encodeFrame_power s.params.ackSetPower, ?_⟩
  · rw [hspec]
    rfl
  · rw [hspec, List.getLast?_concat]

/-- Settles O26. -/
theorem encodeRow : Obligations.EncodeRow := fun s c p =>
  ⟨encodeFrame c p, exec_encode c p s, rfl⟩

/-- Settles O27: the two cases are a valid frame and one that is not. -/
theorem decodeRow : Obligations.DecodeRow := by
  intro s f
  refine ⟨fun hmarker hchecksum => ?_, fun hnot => ?_⟩
  · rw [exec_decode, decodeFrame_of_valid ⟨hmarker, hchecksum⟩]
    rfl
  · have hinvalid : ¬ Valid f := not_and_or.mpr hnot
    rw [exec_decode, decodeFrame_of_not_valid hinvalid]
    rfl

/-- Settles O28: what encode builds is valid, so decode answers its fields. -/
theorem codecRoundTrip : Obligations.CodecRoundTrip := fun c p =>
  ⟨valid_encodeFrame c p, decodeFrame_of_valid (valid_encodeFrame c p)⟩

end Sys2Proof.Machine

/-! ## The frame assembler

What each FEED row does to the registers and the traces, that every transaction keeps the three invariants, and what
whole runs of bytes do from SEEKING and in the middle of a frame; the statements of 41_assembler are short uses of these. -/

namespace Sys2Proof.Machine

/-! ### The three invariants -/

/-- The FEED transaction keeps I-LEN, I-BOUND and I-SEEK wherever the fed byte has a row. -/
theorem afterFeed_keeps_regInv {s : State} (h : RegInv s) (hc : s.count ≤ 7) (rest : List Byte) (b : Byte) :
    RegInv (afterFeed s rest (feedSpec s.params (registers s) b)) := by
  cases hm : s.mode with
  | seeking =>
    obtain ⟨hlen, hbound, hseek⟩ := h
    rw [registers, hm]
    by_cases hb : b = Config.marker
    · rw [hb, feedSpec_marker]
      exact ⟨rfl, Nat.le_add_left 1 7, nofun⟩
    · rw [feedSpec_noise hb]
      exact ⟨hlen, hbound, fun _ => hseek hm⟩
  | accumulating =>
    obtain ⟨hlen, -, -⟩ := h
    rw [registers, hm]
    rcases Nat.lt_or_eq_of_le hc with hlt | h7
    · rw [feedSpec_data (Nat.le_of_lt_succ hlt)]
      exact ⟨by simpa [afterFeed, ILen] using hlen, Nat.succ_le_succ hc, nofun⟩
    · obtain ⟨cand, hcand, -⟩ := frameOfBytes_of_length (bs := s.buf ++ [b]) (by simp [← hlen, h7])
      rw [h7, feedSpec_end hcand]
      exact ⟨rfl, Nat.zero_le _, fun _ => ⟨rfl, rfl⟩⟩

theorem step_keeps_regInv {s t : State} (hi : RegInv s) (h : step s = .next t) : RegInv t := by
  obtain ⟨-, ⟨-, rfl⟩ | ⟨b, rest, -, hc, rfl⟩⟩ := step_next_feed_cases h
  · exact hi
  · exact afterFeed_keeps_regInv hi hc rest b

theorem ready_of_step_next {s t : State} (h : step s = .next t) : Ready s := (feedGuard_next h).1

theorem step_keeps_ready {s t : State} (h : step s = .next t) : Ready t := by
  obtain ⟨hd, hi⟩ := ready_of_step_next h
  exact ⟨step_keeps_params h ▸ hd, step_keeps_regInv hi h⟩

/-- I-SEEK: in SEEKING the registers have their reset values. -/
theorem registers_of_seeking {s : State} (hr : Ready s) (hm : s.mode = .seeking) : registers s = resetRegisters := by
  obtain ⟨-, -, -, hseek⟩ := hr
  obtain ⟨hbuf, hcount⟩ := hseek hm
  rw [registers, hm, hcount, hbuf, resetRegisters]

/-! ### The FEED rows inverted: where one answers a next state, it is this one -/

theorem exec_feedNoise_next {s t : State} {b : Byte} (h : exec (.feedNoise b) s = .next t) :
    t = { s with outcomes := s.outcomes ++ [.noiseDiscarded] } := by
  obtain ⟨hr, hguarded⟩ := feedGuard_next h
  obtain ⟨⟨hm, hb⟩, -⟩ := ifSelected_next hguarded
  exact Host.Outcome.next.inj (h.symm.trans (exec_feedNoise hr hm hb))

theorem exec_feedStart_next {s t : State} (h : exec .feedStart s = .next t) :
    t = { s with
      mode := .accumulating, count := 1, buf := [Config.marker], outcomes := s.outcomes ++ [.frameStarted] } := by
  obtain ⟨hr, hguarded⟩ := feedGuard_next h
  obtain ⟨hm, -⟩ := ifSelected_next hguarded
  exact Host.Outcome.next.inj (h.symm.trans (exec_feedStart hr hm))

theorem exec_feedData_next {s t : State} {b : Byte} (h : exec (.feedData b) s = .next t) :
    t = { s with
      count := s.count + 1, buf := s.buf ++ [b], outcomes := s.outcomes ++ [.byteAccumulated] } := by
  obtain ⟨hr, hguarded⟩ := feedGuard_next h
  obtain ⟨⟨hm, hroom⟩, -⟩ := ifSelected_next hguarded
  have hc : s.count ≤ 6 := Nat.le_of_lt_succ (Nat.lt_of_succ_lt_succ hroom)
  exact Host.Outcome.next.inj (h.symm.trans (exec_feedData hr hm hc b))

theorem exec_feedEnd_next {s t : State} {b : Byte} (h : exec (.feedEnd b) s = .next t) :
    ∃ cand, t = { s with
      mode := .seeking, count := 0, buf := [],
      events := s.events ++ (candidateSpec s.params cand).1,
      outcomes := s.outcomes ++ [(candidateSpec s.params cand).2] } := by
  obtain ⟨hr, hguarded⟩ := feedGuard_next h
  obtain ⟨⟨hm, hfull⟩, -⟩ := ifSelected_next hguarded
  have hc : s.count = 7 := Nat.succ.inj hfull
  obtain ⟨cand, hcand, -⟩ := execFeedEnd_eq hr hm hc b
  exact ⟨cand, Host.Outcome.next.inj (h.symm.trans (exec_feedEnd_eq hr hm hc hcand))⟩

/-! ### Invalid candidates (41_assembler R79) -/

theorem decodeFrame_eq_frameInvalid_iff (f : WireFrame) : decodeFrame f = .frameInvalid ↔ ¬ Valid f := by
  refine ⟨fun h hv => ?_, decodeFrame_of_not_valid⟩
  rw [decodeFrame_of_valid hv] at h
  cases h

theorem candidateSpec_of_frameInvalid {f : WireFrame} (h : decodeFrame f = .frameInvalid) (p : Params) :
    candidateSpec p f = ([], .frameInvalid) := by
  rw [candidateSpec, h]

theorem exec_frameInvalid_of_not_valid {s : State} {f : WireFrame} (hd : s.params.Distinct) (hf : ¬ Valid f) :
    exec (.frameInvalid f) s = .next { s with outcomes := s.outcomes ++ [.frameInvalid] } := by
  rw [exec, execFrameInvalid, ifConfigured_of_distinct hd, ifSelected_of_true hf, finish]

theorem exec_frameInvalid_of_valid {s : State} {f : WireFrame} (hd : s.params.Distinct) (hf : Valid f) :
    exec (.frameInvalid f) s = .refused .rowNotSelected := by
  rw [exec, execFrameInvalid, ifConfigured_of_distinct hd, ifSelected_of_false (not_not.mpr hf)]

/-- A frame whose bytes are seven held bytes and an eighth is those seven with the eighth as its checksum. -/
theorem frameBytes_eq_concat {f : WireFrame} {bs : List Byte} {b : Byte} (h : frameBytes f = bs ++ [b]) :
    frameHead f = bs ∧ f.checksum = b := by
  have hsplit : frameHead f ++ [f.checksum] = bs ++ [b] := h
  obtain ⟨hhead, hlast⟩ := List.append_inj' hsplit rfl
  exact ⟨hhead, List.singleton_inj.mp hlast⟩

/-- A candidate that begins with the marker fails by its checksum only. -/
theorem decodeFrame_eq_frameInvalid_iff_of_marker {f : WireFrame} (hf : f.marker = Config.marker) :
    decodeFrame f = .frameInvalid ↔ f.checksum ≠ checksum (frameHead f) Config.ckLen := by
  rw [decodeFrame_eq_frameInvalid_iff, Valid, and_iff_right hf]

/-! ### Runs of bytes -/

theorem runSteps_idle {s : State} (hr : Ready s) (hin : s.input = []) (k : Nat) : runSteps k s = .next s := by
  induction k with
  | zero => rfl
  | succ k ih => rw [runSteps_succ_of_next (step_of_idle hr hin), ih]

theorem step_noise {s : State} {b : Byte} {rest : List Byte} (hr : Ready s) (hm : s.mode = .seeking)
    (hb : b ≠ Config.marker) (hin : s.input = b :: rest) :
    step s = .next { s with input := rest, outcomes := s.outcomes ++ [.noiseDiscarded] } :=
  (step_eq_exec hr hin (hm ▸ decodeFedByte_noise hb s.count)).trans
    (exec_feedNoise (s := { s with input := rest }) hr hm hb)

/-- In SEEKING a run of bytes without the marker is discarded, one outcome each. -/
theorem runSteps_noise {bs rest : List Byte} {s : State} (hr : Ready s) (hm : s.mode = .seeking)
    (hbs : ∀ b ∈ bs, b ≠ Config.marker) (hin : s.input = bs ++ rest) :
    runSteps bs.length s = .next { s with
      input := rest, outcomes := s.outcomes ++ List.replicate bs.length .noiseDiscarded } := by
  induction bs generalizing s with
  | nil =>
    subst hin
    simp
  | cons b bs ih =>
    obtain ⟨hb, hbs⟩ := List.forall_mem_cons.mp hbs
    have hstep := step_noise hr hm hb hin
    rw [List.length_cons, runSteps_succ_of_next hstep, ih (step_keeps_ready hstep) hm hbs rfl]
    simp [List.replicate_succ]

/-- The state of a block that was in SEEKING, after the marker and `front`, with `rest` still waiting (41_assembler
R82). -/
def midFrame (s : State) (front rest : List Byte) : State :=
  { s with
    mode := .accumulating, count := front.length + 1, buf := Config.marker :: front, input := rest,
    outcomes := s.outcomes ++ [.frameStarted] ++ List.replicate front.length .byteAccumulated }

theorem ready_midFrame {s : State} (hr : Ready s) {front : List Byte} (hlen : front.length ≤ 6) (rest : List Byte) :
    Ready (midFrame s front rest) :=
  ⟨hr.1, rfl, Nat.le_succ_of_le (Nat.succ_le_succ hlen), nofun⟩

/-- The marker and at most six bytes behind it, fed from SEEKING. -/
theorem runSteps_midFrame {s : State} {front rest : List Byte} (hr : Ready s) (hm : s.mode = .seeking)
    (hlen : front.length ≤ 6) (hin : s.input = Config.marker :: (front ++ rest)) :
    runSteps (1 + front.length) s = .next (midFrame s front rest) := by
  have hstart := step_start hr hm hin
  have hbstart := step_keeps_boundary (boundary_of_ready_seeking hr hm) hstart
  have hroom : 1 + front.length ≤ 7 := by omega
  rw [Nat.add_comm, runSteps_succ_of_next hstart, runSteps_data hbstart hr.1 rfl hroom rfl, midFrame,
    Nat.add_comm front.length]
  rfl

/-- The bytes that fill the buffer complete the candidate, whatever they are (41_assembler R77, R78). -/
theorem runSteps_complete {bs rest : List Byte} {s : State} (hb : Boundary s) (hd : s.params.Distinct)
    (hm : s.mode = .accumulating) (hc : s.count + bs.length = 8) (hin : s.input = bs ++ rest) :
    ∃ cand, frameBytes cand = s.buf ++ bs ∧
      runSteps bs.length s = .next { s with
        mode := .seeking, count := 0, buf := [], input := rest,
        events := s.events ++ (candidateSpec s.params cand).1,
        outcomes := s.outcomes ++ List.replicate (7 - s.count) .byteAccumulated ++
          [(candidateSpec s.params cand).2] } := by
  cases bs using List.reverseRecOn with
  | nil => exact absurd (count_le_seven_of_boundary hb) (by rw [List.length_nil] at hc; omega)
  | append_singleton bs b =>
    rw [List.length_append, List.length_singleton] at hc ⊢
    have hc7 : s.count + bs.length = 7 := Nat.succ.inj hc
    have hdata := runSteps_data hb hd hm hc7.le (hin.trans (List.append_assoc ..))
    have hr := ready_of_boundary (runSteps_keeps_boundary hb hdata) hd
    obtain ⟨cand, hcand, hbytes, -⟩ := execFeedEnd_eq hr hm hc7 b
    refine ⟨cand, hbytes.trans (List.append_assoc ..), ?_⟩
    rw [← hc7, Nat.add_sub_cancel_left]
    exact (runSteps_add hdata 1).trans (runSteps_succ_of_next (step_end hr hm hc7 rfl hcand) 0)

/-- A whole frame fed from SEEKING leaves the registers as they were. -/
theorem runSteps_frame_keeps_registers {s : State} {f : WireFrame} {rest : List Byte} (hr : Ready s)
    (hm : s.mode = .seeking) (hf : f.marker = Config.marker) (hin : s.input = frameBytes f ++ rest) :
    runSteps 8 s = .next { s with
      input := rest,
      events := s.events ++ (candidateSpec s.params f).1,
      outcomes := s.outcomes ++ [.frameStarted] ++ List.replicate 6 .byteAccumulated ++
        [(candidateSpec s.params f).2] } := by
  have hrun := runSteps_frame hr hm hf hin
  obtain ⟨-, -, -, hseek⟩ := hr
  obtain ⟨hbuf, hcount⟩ := hseek hm
  rw [hrun, hm, hbuf, hcount]

/-! ### The statements of 41_assembler -/

/-- Settles O4: the boundary shape of the reset state implies the invariants, every transaction keeps them, and the guard
stops a state without them. -/
theorem invariantGuard : Obligations.InvariantGuard :=
  ⟨fun p => regInv_of_boundary (boundary_resetWith p), fun _ _ => step_keeps_regInv,
    fun _ hd hi => feedGuard_of_not_inv hd hi _, fun _ _ hi h => hi (ready_of_step_next h).2⟩

/-- Settles O13: seven bytes held and the fed one are the candidate, and a held marker leaves only the checksum to
fail. -/
theorem frameEndCompletesTheCandidate : Obligations.FrameEndCompletesTheCandidate := by
  intro s b hr hm hc
  obtain ⟨cand, hcand, hbytes, -⟩ := execFeedEnd_eq hr hm hc b
  refine ⟨cand, hbytes, exec_feedEnd_eq hr hm hc hcand, fun h => candidateSpec_of_frameInvalid h s.params, ?_⟩
  intro hmarker
  obtain ⟨hhead, hlast⟩ := frameBytes_eq_concat hbytes
  rw [← hhead] at hmarker ⊢
  rw [← hlast]
  exact decodeFrame_eq_frameInvalid_iff_of_marker (Option.some.inj hmarker)

/-- Settles O41: each row's next state is one record update, of which the frame is read off. -/
theorem frameOfTheFeedRows : Obligations.FrameOfTheFeedRows := by
  intro s t b
  refine ⟨fun h => ?_, fun h => ?_, fun h => ?_, fun h => ?_, ?_⟩
  · rw [exec_feedNoise_next h]
    exact ⟨rfl, rfl⟩
  · rw [exec_feedStart_next h]
  · rw [exec_feedData_next h]
    exact ⟨rfl, rfl⟩
  · obtain ⟨cand, rfl⟩ := exec_feedEnd_next h
    exact ⟨rfl, List.prefix_append ..⟩
  · rintro (h | h | h | h)
    · rw [exec_feedNoise_next h]
      exact ⟨rfl, rfl, rfl, _, rfl⟩
    · rw [exec_feedStart_next h]
      exact ⟨rfl, rfl, rfl, _, rfl⟩
    · rw [exec_feedData_next h]
      exact ⟨rfl, rfl, rfl, _, rfl⟩
    · obtain ⟨cand, rfl⟩ := exec_feedEnd_next h
      exact ⟨rfl, rfl, rfl, _, rfl⟩

/-- Settles O45: with room for one byte more it is appended, and the eighth returns the registers. -/
theorem noMidFrameResynchronization : Obligations.NoMidFrameResynchronization := by
  intro s b rest hr hm hc hin
  rcases Nat.lt_or_eq_of_le hc with hlt | h7
  · have hc6 : s.count ≤ 6 := Nat.le_of_lt_succ hlt
    refine ⟨_, step_data hr hm hc6 hin, rfl, fun _ => by rw [registers, hm], fun h7 => ?_⟩
    exact absurd h7 hlt.ne
  · obtain ⟨cand, hcand, -⟩ := execFeedEnd_eq hr hm h7 b
    refine ⟨_, step_end hr hm h7 hin hcand, rfl, fun hc6 => ?_, fun _ => rfl⟩
    exact absurd hc6 (by omega)

/-- Settles O49: the noise is discarded, and the frame is completed from the state that leaves. -/
theorem resynchronization : Obligations.Resynchronization := by
  intro s noise f rest hr hm hnoise hf hin
  have hdiscard := runSteps_noise hr hm hnoise (hin.trans (List.append_assoc ..))
  rw [runSteps_add hdiscard, ← candidateSpec_of_valid hf]
  exact runSteps_frame_keeps_registers (s := { s with input := _, outcomes := _ }) hr hm hf.1 rfl

/-- Settles O50: the block parks behind `front`, and the eight bytes at once run through the same state with `back`
waiting. -/
theorem partialFrameStall : Obligations.PartialFrameStall := by
  intro s front back hr hm hin hfront hlen
  have hinput : ∀ bs : List Byte, (deliver bs s).input = bs := fun bs => by rw [deliver_input, hin, List.nil_append]
  refine ⟨midFrame s front [], rfl, rfl, fun wait => ?_, ?_⟩
  · have hrun := runSteps_midFrame (s := deliver (Config.marker :: front) s) (rest := []) hr hm hfront
      ((hinput _).trans (by rw [List.append_nil]))
    exact (runSteps_add hrun wait).trans (runSteps_idle (ready_midFrame hr hfront []) rfl wait)
  · have hrun := runSteps_midFrame (s := deliver (Config.marker :: front ++ back) s) hr hm hfront (hinput _)
    have htotal : (Config.marker :: front ++ back).length = 1 + front.length + back.length := by
      simp only [List.length_append, List.length_cons]
      omega
    exact Eq.symm ((congrArg (runSteps · _) htotal).trans (runSteps_add hrun back.length))

/-- Settles O51. -/
theorem falseMarkerTakesTheNextSevenBytes : Obligations.FalseMarkerTakesTheNextSevenBytes := by
  intro s f rest hr hm hf hin
  refine ⟨runSteps_frame_keeps_registers hr hm hf hin, fun hchecksum => ?_⟩
  exact candidateSpec_of_frameInvalid ((decodeFrame_eq_frameInvalid_iff_of_marker hf).mpr hchecksum) s.params

/-- Settles O52: from SEEKING the seven bytes are noise; with k bytes held, the first 8 - k complete the candidate and
the rest are noise. -/
theorem sevenByteFlush : Obligations.SevenByteFlush := by
  intro s flush rest hd hb hlen hflush hin
  have hr := ready_of_boundary hb hd
  cases hm : s.mode with
  | seeking =>
    have hrun := runSteps_noise hr hm hflush hin
    rw [hlen] at hrun
    exact ⟨_, hrun, registers_of_seeking hr hm, rfl, fun _ => ⟨rfl, rfl⟩, nofun⟩
  | accumulating =>
    have hpos : s.count ≠ 0 := fun hzero => nomatch hm.symm.trans ((seeking_iff_count_zero_of_boundary hb).mpr hzero)
    have hle : s.count ≤ 7 := count_le_seven_of_boundary hb
    have hfill : (flush.take (8 - s.count)).length = 8 - s.count := List.length_take_of_le (by omega)
    have hleft : (flush.drop (8 - s.count)).length = s.count - 1 := by rw [List.length_drop]; omega
    obtain ⟨cand, hbytes, hcomplete⟩ := runSteps_complete (bs := flush.take (8 - s.count))
      (rest := flush.drop (8 - s.count) ++ rest) hb hd hm (by omega)
      (by rw [hin, ← List.append_assoc, List.take_append_drop])
    have hready : Ready { s with mode := .seeking, count := 0, buf := [] } :=
      ⟨hd, rfl, Nat.zero_le _, fun _ => ⟨rfl, rfl⟩⟩
    have hrun := (runSteps_add hcomplete _).trans
      (runSteps_noise hready rfl (fun b hmem => hflush b (List.mem_of_mem_drop hmem)) rfl)
    have hseven : 8 - s.count + (s.count - 1) = 7 := by omega
    rw [hfill, hleft, hseven] at hrun
    exact ⟨_, hrun, rfl, rfl, nofun, fun _ => ⟨cand, hbytes, rfl, rfl⟩⟩

/-- Settles O10. -/
theorem noiseIsDiscarded : Obligations.NoiseIsDiscarded := fun _ _ hr hm hb => exec_feedNoise hr hm hb

/-- Settles O11. -/
theorem markerStartsAFrame : Obligations.MarkerStartsAFrame := fun _ hr hm => exec_feedStart hr hm

/-- Settles O12. -/
theorem frameDataIsAppended : Obligations.FrameDataIsAppended := fun _ b hr hm hc => exec_feedData hr hm hc b

/-- Settles O20: decode answers FrameInvalid exactly on a frame that is not valid, which is the row's own condition. -/
theorem invalidFrameIsDropped : Obligations.InvalidFrameIsDropped := by
  intro s f hd
  rw [Ne, decodeFrame_eq_frameInvalid_iff, not_not]
  exact ⟨exec_frameInvalid_of_not_valid hd, exec_frameInvalid_of_valid hd⟩

end Sys2Proof.Machine

/-! ## The command dispatcher

What each frame row puts out, that a frame row writes nothing but the two traces, and what DISPATCH does with a code that
is or is not a request code; the statements of 42_dispatcher are short uses of these. -/

namespace Sys2Proof.Machine

/-! ### The dispatch rows (42_dispatcher R87 to R92) -/

theorem mem_requestCodes_iff (p : Params) (c : Byte) :
    c ∈ p.requestCodes ↔
      c = p.cmdConfigTc ∨ c = p.cmdSetPower ∨ c = p.cmdAuto ∨ c = p.cmdManual ∨ c = p.cmdShutdown := by
  simp only [Params.requestCodes, List.mem_cons, List.not_mem_nil, or_false]

theorem not_mem_requestCodes_iff (p : Params) (c : Byte) :
    c ∉ p.requestCodes ↔
      c ≠ p.cmdConfigTc ∧ c ≠ p.cmdSetPower ∧ c ≠ p.cmdAuto ∧ c ≠ p.cmdManual ∧ c ≠ p.cmdShutdown := by
  simp only [mem_requestCodes_iff, not_or]

theorem exec_configTc {s : State} (hd : s.params.Distinct) (payload : Payload) (reserved : Byte) :
    exec (.configTc payload reserved) s = .next { s with
      events := s.events ++ [.setTc (tcOperand s.params payload),
        .write (ackConfigTc s.params (tcOperand s.params payload))],
      outcomes := s.outcomes ++ [.dispatchedConfigTc] } := by
  rw [exec, execConfigTc, ifConfigured_of_distinct hd]
  simp only [finish, writeAck, emit, List.append_assoc, List.singleton_append]

theorem exec_setPower {s : State} (hd : s.params.Distinct) (payload : Payload) (reserved : Byte) :
    exec (.setPower payload reserved) s = .next { s with
      events := s.events ++ [.setPower (powerOperand payload),
        .write (ackSetPower s.params (powerOperand payload))],
      outcomes := s.outcomes ++ [.dispatchedSetPower] } := by
  rw [exec, execSetPower, ifConfigured_of_distinct hd]
  simp only [finish, writeAck, emit, List.append_assoc, List.singleton_append]

theorem exec_enableAuto {s : State} (hd : s.params.Distinct) (payload : Payload) (reserved : Byte) :
    exec (.enableAuto payload reserved) s = .next (finish .dispatchedAuto (writeAck (ackAuto s.params) s)) :=
  ifConfigured_of_distinct hd _

theorem exec_enableManual {s : State} (hd : s.params.Distinct) (payload : Payload) (reserved : Byte) :
    exec (.enableManual payload reserved) s = .next (finish .dispatchedManual (writeAck (ackManual s.params) s)) :=
  ifConfigured_of_distinct hd _

theorem exec_shutdown {s : State} (hd : s.params.Distinct) (payload : Payload) (reserved : Byte) :
    exec (.shutdown payload reserved) s = .next (finish .dispatchedShutdown (writeAck (ackShutdown s.params) s)) :=
  ifConfigured_of_distinct hd _

theorem exec_unrecognized_of_not_mem {s : State} (hd : s.params.Distinct) {c : Byte} (hc : c ∉ s.params.requestCodes)
    (payload : Payload) (reserved : Byte) :
    exec (.unrecognized c payload reserved) s = .next (finish .unrecognized s) := by
  rw [exec, execUnrecognized, ifConfigured_of_distinct hd, ifSelected_of_true hc]

theorem exec_unrecognized_of_mem {s : State} (hd : s.params.Distinct) {c : Byte} (hc : c ∈ s.params.requestCodes)
    (payload : Payload) (reserved : Byte) :
    exec (.unrecognized c payload reserved) s = .refused .rowNotSelected := by
  rw [exec, execUnrecognized, ifConfigured_of_distinct hd, ifSelected_of_false (not_not.mpr hc)]

/-! ### The frame rows inverted (42_dispatcher R85): where one answers a next state, only the traces have grown -/

/-- A row of a completed candidate adds its events and one outcome. -/
theorem exec_inboundRow_next {s t : State} {i : Instr} (hi : siteFits .inbound i = true) (h : exec i s = .next t) :
    ∃ es o, t = { s with events := s.events ++ es, outcomes := s.outcomes ++ [o] } := by
  cases i with
  | configTc payload reserved =>
    obtain ⟨hd, -⟩ := ifConfigured_next h
    exact ⟨_, _, Host.Outcome.next.inj (h.symm.trans (exec_configTc hd payload reserved))⟩
  | setPower payload reserved =>
    obtain ⟨hd, -⟩ := ifConfigured_next h
    exact ⟨_, _, Host.Outcome.next.inj (h.symm.trans (exec_setPower hd payload reserved))⟩
  | enableAuto | enableManual | shutdown =>
    obtain ⟨-, hanswer⟩ := ifConfigured_next h
    cases hanswer
    exact ⟨_, _, rfl⟩
  | unrecognized | frameInvalid =>
    obtain ⟨-, hguarded⟩ := ifConfigured_next h
    obtain ⟨-, hanswer⟩ := ifSelected_next hguarded
    cases hanswer
    exact ⟨[], _, by rw [List.append_nil, finish]⟩
  | _ => cases hi

/-- An ack row adds one Write and no outcome. -/
theorem exec_outboundRow_next {s t : State} {i : Instr} (hi : siteFits .outbound i = true) (h : exec i s = .next t) :
    ∃ f, t = writeAck f s := by
  cases i with
  | ackConfigTcFrame | ackSetPowerFrame | ackAutoFrame | ackManualFrame | ackShutdownFrame =>
    obtain ⟨-, hanswer⟩ := ifConfigured_next h
    exact ⟨_, (Host.Outcome.next.inj hanswer).symm⟩
  | _ => cases hi

/-- No row stands both inbound and outbound. -/
theorem not_outbound_of_inbound {i : Instr} (hi : siteFits .inbound i = true) : siteFits .outbound i ≠ true := by
  cases i with
  | configTc | setPower | enableAuto | enableManual | shutdown | unrecognized | frameInvalid => nofun
  | _ => cases hi

/-! ### How much one outcome comes with (42_dispatcher R86) -/

@[simp] theorem isActuatorEvent_write (f : WireFrame) : isActuatorEvent (.write f) = false := rfl

theorem outcomeWidth_le_two (o : FeedOutcome) : outcomeWidth o ≤ 2 := by
  cases o with
  | _ => decide

/-- A dispatch outcome comes with one Write, every other with none. -/
theorem writtenFrames_length_of_outcomeExplains {p : Params} {o : FeedOutcome} {es : List Event}
    (h : outcomeExplains p o es = true) : (writtenFrames es).length = (outcomeIsDispatch o).toNat := by
  obtain ⟨rfl, -, hd⟩ | ⟨acts, c, payload, rfl, hacts, -, hd⟩ := outcomeExplains_cases h
  · rw [hd]; rfl
  · rw [hd, writtenFrames_append, hacts]; rfl

/-- The Write leaves room for one more event at most. -/
theorem countP_isActuatorEvent_of_outcomeExplains {p : Params} {o : FeedOutcome} {es : List Event}
    (h : outcomeExplains p o es = true) : es.countP isActuatorEvent ≤ 1 := by
  obtain ⟨rfl, -, -⟩ | ⟨acts, c, payload, rfl, -, hwidth, -⟩ := outcomeExplains_cases h
  · exact Nat.zero_le 1
  · have hone : acts.length ≤ 1 := Nat.le_of_succ_le_succ (hwidth.ge.trans (outcomeWidth_le_two o))
    calc (acts ++ [Event.write (encodeFrame c payload)]).countP isActuatorEvent
      _ = acts.countP isActuatorEvent := by simp
      _ ≤ acts.length := List.countP_le_length
      _ ≤ 1 := hone

/-! ### DISPATCH by the code (42_dispatcher R97) -/

theorem dispatchSpec_of_not_mem {p : Params} {fr : Frame} (hc : fr.command ∉ p.requestCodes) :
    dispatchSpec p fr = ([], .unrecognized) := by
  obtain ⟨h1, h2, h3, h4, h5⟩ := (not_mem_requestCodes_iff p fr.command).mp hc
  rw [dispatchSpec, if_neg h1, if_neg h2, if_neg h3, if_neg h4, if_neg h5]

/-- A request code's last event is its ack. -/
theorem dispatchSpec_of_mem {p : Params} {fr : Frame} (hc : fr.command ∈ p.requestCodes) :
    ∃ acts f, (dispatchSpec p fr).1 = acts ++ [.write f] := by
  unfold dispatchSpec
  split_ifs with h1 h2 h3 h4 h5
  · exact ⟨[_], _, rfl⟩
  · exact ⟨[_], _, rfl⟩
  · exact ⟨[], _, rfl⟩
  · exact ⟨[], _, rfl⟩
  · exact ⟨[], _, rfl⟩
  · exact absurd hc ((not_mem_requestCodes_iff p fr.command).mpr ⟨h1, h2, h3, h4, h5⟩)

/-! ### The statements of 42_dispatcher -/

/-- Settles O39: the step is the byte's FEED transaction, whose outcome explains its events, and an explained outcome
comes with one Write or none and at most one event beside it. -/
theorem oneOutcomePerTransaction : Obligations.OneOutcomePerTransaction := by
  intro s t b rest hin h
  obtain ⟨-, rfl⟩ := step_next_of_waiting hin h
  have hexplained := feedSpec_explained s.params (registers s) b
  have hwritten := writtenFrames_length_of_outcomeExplains hexplained
  refine ⟨_, _, rfl, rfl, hexplained, ?_, countP_isActuatorEvent_of_outcomeExplains hexplained, ?_, rfl, rfl, rfl⟩
  · rw [hwritten]
    exact Bool.toNat_le _
  · rw [hwritten]
    exact Bool.toNat_eq_one.symm

/-- Settles O42: an inbound row adds events and an outcome, an outbound row one event, and neither writes more. -/
theorem frameOfTheFrameRows : Obligations.FrameOfTheFrameRows := by
  rintro s t i (hi | hi) h
  · obtain ⟨es, o, rfl⟩ := exec_inboundRow_next hi h
    exact ⟨rfl, rfl, rfl, rfl, List.prefix_append .., List.prefix_append .., fun hout =>
      absurd hout (not_outbound_of_inbound hi)⟩
  · obtain ⟨f, rfl⟩ := exec_outboundRow_next hi h
    exact ⟨rfl, rfl, rfl, rfl, List.prefix_append .., List.prefix_rfl, fun _ => ⟨rfl, List.length_append⟩⟩

/-- Settles O48: the frame is valid, so its eight bytes end in DISPATCH of its own fields, which goes by the code. -/
theorem ackFedBackGoesByItsCode : Obligations.AckFedBackGoesByItsCode := by
  intro s c payload rest hr hm hin
  have hv := valid_encodeFrame c payload
  have hspec : candidateSpec s.params (encodeFrame c payload) =
      dispatchSpec s.params ⟨c, payload, 0x00#8, (encodeFrame c payload).checksum⟩ := candidateSpec_of_valid hv s.params
  rw [← hspec]
  refine ⟨_, runSteps_frame hr hm hv.1 hin, rfl, rfl, rfl, fun hc => ?_, fun hc => ?_⟩
  · rw [hspec, dispatchSpec_of_not_mem hc]
    exact ⟨List.append_nil _, List.getLast?_concat⟩
  · obtain ⟨acts, f, hacts⟩ := dispatchSpec_of_mem (fr := ⟨c, payload, 0x00#8, (encodeFrame c payload).checksum⟩) hc
    exact ⟨f, by rw [hspec, hacts, ← List.append_assoc, List.getLast?_concat]⟩

/-- Settles O16. -/
theorem configureThermocouple : Obligations.ConfigureThermocouple := fun _ payload reserved hd =>
  exec_configTc hd payload reserved

/-- Settles O17: Set-Power's operand and its place in the ack are both payload byte 0. -/
theorem setPower : Obligations.SetPower := fun _ payload reserved hd => exec_setPower hd payload reserved

/-- Settles O18. -/
theorem stubCommandsOnlyAcknowledge : Obligations.StubCommandsOnlyAcknowledge := fun _ payload reserved hd =>
  ⟨exec_enableAuto hd payload reserved, exec_enableManual hd payload reserved, exec_shutdown hd payload reserved⟩

/-- Settles O19: the row's own condition is that the command is none of the five request codes. -/
theorem unrecognizedIsDropped : Obligations.UnrecognizedIsDropped := by
  intro s c payload reserved hd
  rw [← not_mem_requestCodes_iff, ← mem_requestCodes_iff]
  exact ⟨fun hc => exec_unrecognized_of_not_mem hd hc payload reserved,
    fun hc => exec_unrecognized_of_mem hd hc payload reserved⟩

/-- Settles O21: each ack row passes the guard and writes its frame, which encode makes valid. -/
theorem ackRowsWriteOneValidFrame : Obligations.AckRowsWriteOneValidFrame := fun _ _ hd =>
  ⟨ifConfigured_of_distinct hd _, ifConfigured_of_distinct hd _, ifConfigured_of_distinct hd _,
    ifConfigured_of_distinct hd _, ifConfigured_of_distinct hd _,
    fun c p => ⟨rfl, rfl, rfl, rfl, valid_encodeFrame c p⟩⟩

end Sys2Proof.Machine

/-! ## The idle block -/

namespace Sys2Proof.Machine

/-- Settles O7, by the run of a block with no byte waiting: each of its steps is the idle step. -/
theorem idleBlockHoldsItsState : Obligations.IdleBlockHoldsItsState := fun _ k hr hin => runSteps_idle hr hin k

end Sys2Proof.Machine

/-! ## Reset -/

namespace Sys2Proof.Machine

/-- Settles O1: every field the statement names is one that State.resetWith writes out, and State.reset is its instance at
the tie-off. -/
theorem resetHoldsTheSpecValues : Obligations.ResetHoldsTheSpecValues :=
  ⟨fun _ => ⟨rfl, rfl, rfl, rfl, rfl, rfl, rfl⟩, rfl⟩

end Sys2Proof.Machine
